-- ==== Sys2Proof/Word.lean ====
section
/-! DEFINITION. The 36-bit word, its halves and signed value (00_scope.md R11-R17), and the set of seven condition
flags (10_state.md R60). Bit 35 is the sign, bit 0 the least significant (R12). -/

namespace Sys2Proof

/-- R11, R16: a word is one unsigned value of 36 bits; its halves are views of it. -/
abbrev Word := BitVec 36

/-- R11: a halfword; also an 18-bit address (the port `E`, the program counter). -/
abbrev Half := BitVec 18

/-- R51, R151: the number of an accumulator, 0 to 17 octal; sums of it wrap modulo 16 (D36). -/
abbrev AcNum := BitVec 4

/-- R11: an address of the word memory in its widest form, 30 bits; an 18-bit address is one below 2^18. -/
abbrev MemAddr := BitVec 30

/-- R16: the left half, bits 35:18. -/
def lh (w : Word) : Half := w.extractLsb' 18 18

/-- R16: the right half, bits 17:0. -/
def rh (w : Word) : Half := w.extractLsb' 0 18

/-- R13: the word `l,,r` of two halves. -/
def halves (l r : Half) : Word := l ++ r

/-- R13: the word `l,,r` written with numerals. -/
def hw (l r : Nat) : Word := halves (BitVec.ofNat 18 l) (BitVec.ofNat 18 r)

/-- R14: ONES. -/
def ones : Word := BitVec.allOnes 36

/-- R14: MAXNEG = 400000,,0. -/
def maxNeg : Word := BitVec.ofNat 36 (2 ^ 35)

/-- R14: the signed value of a word. -/
def s36 (w : Word) : Int := w.toInt

/-- R14, R17: an integer masked to 36 bits. -/
def mod36 (v : Int) : Word := BitVec.ofInt 36 v

/-- R60: a set of condition flags. One type for the flag register and for the flag delta of an operation. -/
structure Flags where
  carry0   : Bool
  carry1   : Bool
  overflow : Bool
  trap1    : Bool
  fov      : Bool
  fxu      : Bool
  noDiv    : Bool
deriving DecidableEq, Repr, Inhabited

/-- The empty set of flags. -/
def Flags.none : Flags := ⟨false, false, false, false, false, false, false⟩

end Sys2Proof
end

