-- ==== Sys2Proof/Config.lean ====
section
/-! DEFINITION. The configuration parameters of 00_scope.md R9 and the free values: what the spec names a result for
but gives no value of. A free value is a constant with no body, so that nothing can be proved of it but that it is one value. -/

namespace Sys2Proof

/-- R3: the CPU variant reproduced. No rule branches on it directly (N20). -/
inductive CpuModel where
  | ki | kl | ks
deriving DecidableEq, Repr

/-- R10: architecturally clean results, or the quirk bands of R368. -/
inductive Fidelity where
  | clean | hardware
deriving DecidableEq, Repr

/-- R256: the most-negative dividend against +1 or -1. -/
inductive IdivPolicy where
  | strict | permit
deriving DecidableEq, Repr

/-- R213: whether DMOVN reports negate flags. -/
inductive DmovnPolicy where
  | silent | asNegate
deriving DecidableEq, Repr

/-- R503, R506: the form a byte pointer decodes to. -/
inductive BpForm where
  | owl | owg | owgBad | twl | twg | twBad
deriving DecidableEq, Repr

/-- R507: a choice of BP_TRAP as plain data (log entry 5). OWGBad and TWBad always trap and a well-formed pointer with
S != 0 never does, so what is left to choose is, for each form and each P, whether S = 0 traps: bit P of the form's mask. -/
structure BpTrapChoice where
  owl : BitVec 64
  twl : BitVec 64
  twg : BitVec 64
deriving DecidableEq, Repr

/-- R507, D15: the default, S = 0 and P != 0. -/
def BpTrapChoice.standard : BpTrapChoice := ⟨~~~1#64, ~~~1#64, ~~~1#64⟩

/-- R9: the parameters, fixed for the life of one core. BP_TRAP is `bpTrap`; the Q functions stand below. -/
structure Params where
  cpuModel        : CpuModel
  hasGfloat       : Bool
  fidelity        : Fidelity
  idivMaxneg      : IdivPolicy
  negMaxnegCarry1 : Bool
  dmovnFlags      : DmovnPolicy
  doubleRound     : Bool
  extended        : Bool
  bpTrap          : BpTrapChoice
deriving DecidableEq, Repr

/-- The parameters of the machine after reset: the defaults of R9 where R9 gives one. DESIGN CHOICE (log entry 3) for the
OPEN ones: KL, Clean, Strict, no DMOVN flags. No claim rests on these choices: claims are about every state, so about every
`Params`. -/
def Params.standard : Params where
  cpuModel := .kl
  hasGfloat := true
  fidelity := .clean
  idivMaxneg := .strict
  negMaxnegCarry1 := false
  dmovnFlags := .silent
  doubleRound := true
  extended := false
  bpTrap := .standard

/-- R368, R406: Q_FMP, the outcome of FMP in its quirk band. A free value (log entry 11). -/
opaque Config.qFmp : CpuModel → Word → Word → Word × Flags

/-- R368, R409, R410: Q_FDV, the outcome of FDV (rnd = false) and FDVR (rnd = true) in their quirk band. -/
opaque Config.qFdv : CpuModel → Word → Word → Bool → Word × Flags

/-- R368, R454: Q_DFDV, the outcome of DFDV in its quirk band. -/
opaque Config.qDfdv : CpuModel → Word × Word → Word × Word → (Word × Word) × Flags

/-- R368, R470: Q_GFSC, the outcome of GFSC in its quirk band. -/
opaque Config.qGfsc : CpuModel → Word × Word → Int → (Word × Word) × Flags

/-- R515 gives ADJBP no P field where its count of bytes per word is negative: a free value of the pointer's P and S and the
byte count (log entry 12). -/
opaque Config.adjbpPosition : Nat → Nat → Int → BitVec 6

end Sys2Proof
end

