-- ==== Sys2Proof/Syntax.lean ====
section
/-! DEFINITION. Instructions as syntax: the address fields of R151 and one constructor for each of the 196 rows of
spec/opcode_table.json, named after its mnemonic in lower case. -/

namespace Sys2Proof

/-- R151: the address fields I (bit 22), X (bits 21:18) and Y (bits 17:0) of an instruction, from which the dispatcher
computes the effective address (R711). -/
structure AddrSpec where
  i : Bool
  x : BitVec 4
  y : Half
deriving DecidableEq, Repr

/-- The instructions of the core, with the operand fields their words hold. HALT (`JRST 4,`) is the reference dispatcher's
and no row of the table (R157, R712): `step` recognises its word itself. -/
inductive Instr where
  -- Fixed add and subtract: R204, R205 in the modes of R158.
  | add (ac : AcNum) (a : AddrSpec)
  | addi (ac : AcNum) (a : AddrSpec)
  | addm (ac : AcNum) (a : AddrSpec)
  | addb (ac : AcNum) (a : AddrSpec)
  | sub (ac : AcNum) (a : AddrSpec)
  | subi (ac : AcNum) (a : AddrSpec)
  | subm (ac : AcNum) (a : AddrSpec)
  | subb (ac : AcNum) (a : AddrSpec)
  -- Negate and magnitude: R206, R207 in the modes of R161.
  | movn (ac : AcNum) (a : AddrSpec)
  | movni (ac : AcNum) (a : AddrSpec)
  | movnm (ac : AcNum) (a : AddrSpec)
  | movns (ac : AcNum) (a : AddrSpec)
  | movm (ac : AcNum) (a : AddrSpec)
  | movmi (ac : AcNum) (a : AddrSpec)
  | movmm (ac : AcNum) (a : AddrSpec)
  | movms (ac : AcNum) (a : AddrSpec)
  -- Increment and decrement: R208, R209 with the conditions of R162.
  | aoj (ac : AcNum) (a : AddrSpec)
  | aojl (ac : AcNum) (a : AddrSpec)
  | aoje (ac : AcNum) (a : AddrSpec)
  | aojle (ac : AcNum) (a : AddrSpec)
  | aoja (ac : AcNum) (a : AddrSpec)
  | aojge (ac : AcNum) (a : AddrSpec)
  | aojn (ac : AcNum) (a : AddrSpec)
  | aojg (ac : AcNum) (a : AddrSpec)
  | aos (ac : AcNum) (a : AddrSpec)
  | aosl (ac : AcNum) (a : AddrSpec)
  | aose (ac : AcNum) (a : AddrSpec)
  | aosle (ac : AcNum) (a : AddrSpec)
  | aosa (ac : AcNum) (a : AddrSpec)
  | aosge (ac : AcNum) (a : AddrSpec)
  | aosn (ac : AcNum) (a : AddrSpec)
  | aosg (ac : AcNum) (a : AddrSpec)
  | soj (ac : AcNum) (a : AddrSpec)
  | sojl (ac : AcNum) (a : AddrSpec)
  | soje (ac : AcNum) (a : AddrSpec)
  | sojle (ac : AcNum) (a : AddrSpec)
  | soja (ac : AcNum) (a : AddrSpec)
  | sojge (ac : AcNum) (a : AddrSpec)
  | sojn (ac : AcNum) (a : AddrSpec)
  | sojg (ac : AcNum) (a : AddrSpec)
  | sos (ac : AcNum) (a : AddrSpec)
  | sosl (ac : AcNum) (a : AddrSpec)
  | sose (ac : AcNum) (a : AddrSpec)
  | sosle (ac : AcNum) (a : AddrSpec)
  | sosa (ac : AcNum) (a : AddrSpec)
  | sosge (ac : AcNum) (a : AddrSpec)
  | sosn (ac : AcNum) (a : AddrSpec)
  | sosg (ac : AcNum) (a : AddrSpec)
  -- Double fixed: R211-R213, R255, R258.
  | dadd (ac : AcNum) (a : AddrSpec)
  | dsub (ac : AcNum) (a : AddrSpec)
  | dmul (ac : AcNum) (a : AddrSpec)
  | ddiv (ac : AcNum) (a : AddrSpec)
  | dmovn (ac : AcNum) (a : AddrSpec)
  | dmovnm (ac : AcNum) (a : AddrSpec)
  -- Multiply and divide: R253, R254, R256, R257 in the modes of R160.
  | imul (ac : AcNum) (a : AddrSpec)
  | imuli (ac : AcNum) (a : AddrSpec)
  | imulm (ac : AcNum) (a : AddrSpec)
  | imulb (ac : AcNum) (a : AddrSpec)
  | mul (ac : AcNum) (a : AddrSpec)
  | muli (ac : AcNum) (a : AddrSpec)
  | mulm (ac : AcNum) (a : AddrSpec)
  | mulb (ac : AcNum) (a : AddrSpec)
  | idiv (ac : AcNum) (a : AddrSpec)
  | idivi (ac : AcNum) (a : AddrSpec)
  | idivm (ac : AcNum) (a : AddrSpec)
  | idivb (ac : AcNum) (a : AddrSpec)
  | div (ac : AcNum) (a : AddrSpec)
  | divi (ac : AcNum) (a : AddrSpec)
  | divm (ac : AcNum) (a : AddrSpec)
  | divb (ac : AcNum) (a : AddrSpec)
  -- Boolean functions: R300-R316 in the modes of R158.
  | setz (ac : AcNum) (a : AddrSpec)
  | setzi (ac : AcNum) (a : AddrSpec)
  | setzm (ac : AcNum) (a : AddrSpec)
  | setzb (ac : AcNum) (a : AddrSpec)
  | and (ac : AcNum) (a : AddrSpec)
  | andi (ac : AcNum) (a : AddrSpec)
  | andm (ac : AcNum) (a : AddrSpec)
  | andb (ac : AcNum) (a : AddrSpec)
  | andca (ac : AcNum) (a : AddrSpec)
  | andcai (ac : AcNum) (a : AddrSpec)
  | andcam (ac : AcNum) (a : AddrSpec)
  | andcab (ac : AcNum) (a : AddrSpec)
  | setm (ac : AcNum) (a : AddrSpec)
  | setmi (ac : AcNum) (a : AddrSpec)
  | setmm (ac : AcNum) (a : AddrSpec)
  | setmb (ac : AcNum) (a : AddrSpec)
  | andcm (ac : AcNum) (a : AddrSpec)
  | andcmi (ac : AcNum) (a : AddrSpec)
  | andcmm (ac : AcNum) (a : AddrSpec)
  | andcmb (ac : AcNum) (a : AddrSpec)
  | seta (ac : AcNum) (a : AddrSpec)
  | setai (ac : AcNum) (a : AddrSpec)
  | setam (ac : AcNum) (a : AddrSpec)
  | setab (ac : AcNum) (a : AddrSpec)
  | xor (ac : AcNum) (a : AddrSpec)
  | xori (ac : AcNum) (a : AddrSpec)
  | xorm (ac : AcNum) (a : AddrSpec)
  | xorb (ac : AcNum) (a : AddrSpec)
  | ior (ac : AcNum) (a : AddrSpec)
  | iori (ac : AcNum) (a : AddrSpec)
  | iorm (ac : AcNum) (a : AddrSpec)
  | iorb (ac : AcNum) (a : AddrSpec)
  | andcb (ac : AcNum) (a : AddrSpec)
  | andcbi (ac : AcNum) (a : AddrSpec)
  | andcbm (ac : AcNum) (a : AddrSpec)
  | andcbb (ac : AcNum) (a : AddrSpec)
  | eqv (ac : AcNum) (a : AddrSpec)
  | eqvi (ac : AcNum) (a : AddrSpec)
  | eqvm (ac : AcNum) (a : AddrSpec)
  | eqvb (ac : AcNum) (a : AddrSpec)
  | setca (ac : AcNum) (a : AddrSpec)
  | setcai (ac : AcNum) (a : AddrSpec)
  | setcam (ac : AcNum) (a : AddrSpec)
  | setcab (ac : AcNum) (a : AddrSpec)
  | orca (ac : AcNum) (a : AddrSpec)
  | orcai (ac : AcNum) (a : AddrSpec)
  | orcam (ac : AcNum) (a : AddrSpec)
  | orcab (ac : AcNum) (a : AddrSpec)
  | setcm (ac : AcNum) (a : AddrSpec)
  | setcmi (ac : AcNum) (a : AddrSpec)
  | setcmm (ac : AcNum) (a : AddrSpec)
  | setcmb (ac : AcNum) (a : AddrSpec)
  | orcm (ac : AcNum) (a : AddrSpec)
  | orcmi (ac : AcNum) (a : AddrSpec)
  | orcmm (ac : AcNum) (a : AddrSpec)
  | orcmb (ac : AcNum) (a : AddrSpec)
  | orcb (ac : AcNum) (a : AddrSpec)
  | orcbi (ac : AcNum) (a : AddrSpec)
  | orcbm (ac : AcNum) (a : AddrSpec)
  | orcbb (ac : AcNum) (a : AddrSpec)
  | seto (ac : AcNum) (a : AddrSpec)
  | setoi (ac : AcNum) (a : AddrSpec)
  | setom (ac : AcNum) (a : AddrSpec)
  | setob (ac : AcNum) (a : AddrSpec)
  -- Shifts and rotates: R320-R326.
  | ash (ac : AcNum) (a : AddrSpec)
  | rot (ac : AcNum) (a : AddrSpec)
  | lsh (ac : AcNum) (a : AddrSpec)
  | ashc (ac : AcNum) (a : AddrSpec)
  | rotc (ac : AcNum) (a : AddrSpec)
  | lshc (ac : AcNum) (a : AddrSpec)
  -- Single floating arithmetic: R401-R410 in the modes of R159.
  | fad (ac : AcNum) (a : AddrSpec)
  | fadm (ac : AcNum) (a : AddrSpec)
  | fadb (ac : AcNum) (a : AddrSpec)
  | fadr (ac : AcNum) (a : AddrSpec)
  | fadri (ac : AcNum) (a : AddrSpec)
  | fadrm (ac : AcNum) (a : AddrSpec)
  | fadrb (ac : AcNum) (a : AddrSpec)
  | fsb (ac : AcNum) (a : AddrSpec)
  | fsbm (ac : AcNum) (a : AddrSpec)
  | fsbb (ac : AcNum) (a : AddrSpec)
  | fsbr (ac : AcNum) (a : AddrSpec)
  | fsbri (ac : AcNum) (a : AddrSpec)
  | fsbrm (ac : AcNum) (a : AddrSpec)
  | fsbrb (ac : AcNum) (a : AddrSpec)
  | fmp (ac : AcNum) (a : AddrSpec)
  | fmpm (ac : AcNum) (a : AddrSpec)
  | fmpb (ac : AcNum) (a : AddrSpec)
  | fmpr (ac : AcNum) (a : AddrSpec)
  | fmpri (ac : AcNum) (a : AddrSpec)
  | fmprm (ac : AcNum) (a : AddrSpec)
  | fmprb (ac : AcNum) (a : AddrSpec)
  | fdv (ac : AcNum) (a : AddrSpec)
  | fdvm (ac : AcNum) (a : AddrSpec)
  | fdvb (ac : AcNum) (a : AddrSpec)
  | fdvr (ac : AcNum) (a : AddrSpec)
  | fdvri (ac : AcNum) (a : AddrSpec)
  | fdvrm (ac : AcNum) (a : AddrSpec)
  | fdvrb (ac : AcNum) (a : AddrSpec)
  -- Single floating, fixed ports: R411-R416.
  | ufa (ac : AcNum) (a : AddrSpec)
  | fsc (ac : AcNum) (a : AddrSpec)
  | fix (ac : AcNum) (a : AddrSpec)
  | fixr (ac : AcNum) (a : AddrSpec)
  | fltr (ac : AcNum) (a : AddrSpec)
  -- Double and G floating arithmetic: R451-R454, R461-R464.
  | dfad (ac : AcNum) (a : AddrSpec)
  | dfsb (ac : AcNum) (a : AddrSpec)
  | dfmp (ac : AcNum) (a : AddrSpec)
  | dfdv (ac : AcNum) (a : AddrSpec)
  | gfad (ac : AcNum) (a : AddrSpec)
  | gfsb (ac : AcNum) (a : AddrSpec)
  | gfmp (ac : AcNum) (a : AddrSpec)
  | gfdv (ac : AcNum) (a : AddrSpec)
  -- The EXTEND form (R152): the accumulator and the E0 fields of the first word, then the ignored AC field and the
  -- operand fields of the extended word. R465-R474.
  | gsngl (ac : AcNum) (a0 : AddrSpec) (xac : AcNum) (a1 : AddrSpec)
  | gdble (ac : AcNum) (a0 : AddrSpec) (xac : AcNum) (a1 : AddrSpec)
  | dgfix (ac : AcNum) (a0 : AddrSpec) (xac : AcNum) (a1 : AddrSpec)
  | gfix (ac : AcNum) (a0 : AddrSpec) (xac : AcNum) (a1 : AddrSpec)
  | dgfixr (ac : AcNum) (a0 : AddrSpec) (xac : AcNum) (a1 : AddrSpec)
  | gfixr (ac : AcNum) (a0 : AddrSpec) (xac : AcNum) (a1 : AddrSpec)
  | dgfltr (ac : AcNum) (a0 : AddrSpec) (xac : AcNum) (a1 : AddrSpec)
  | gfltr (ac : AcNum) (a0 : AddrSpec) (xac : AcNum) (a1 : AddrSpec)
  | gfsc (ac : AcNum) (a0 : AddrSpec) (xac : AcNum) (a1 : AddrSpec)
  -- Byte pointers: R510-R516.
  | ibp (a : AddrSpec)
  | adjbp (ac : AcNum) (a : AddrSpec)
  | ildb (ac : AcNum) (a : AddrSpec)
  | ldb (ac : AcNum) (a : AddrSpec)
  | idpb (ac : AcNum) (a : AddrSpec)
  | dpb (ac : AcNum) (a : AddrSpec)
deriving DecidableEq, Repr

end Sys2Proof
end

