-- ==== Sys2Proof/WellFormed.lean ====
section
/-! DEFINITION. Well-formed instructions: those some words encode. One check: the AC field of opcode 133 names IBP when
it is 0 and ADJBP when it is not (30_encoding.md R150, R153 table 10), so an ADJBP of accumulator 0 has no encoding. -/

namespace Sys2Proof

/-- R150, R153: an instruction that has an encoding. -/
def Instr.wf (i : Instr) : Bool :=
  match i with
  | .adjbp ac _ => ac != 0
  | _ => true

end Sys2Proof
end

