-- ==== Sys2Proof/Decode.lean ====
section
/-! DEFINITION. Decoding and encoding instruction words (30_encoding.md R150-R153, R156). The opcode map is written as
rows of an opcode and the instruction it makes from its fields; what no row lists is rejected by name (R156). The encoder
is written from the same tables, separately, as one opcode for each constructor. -/

namespace Sys2Proof

/-- R151: bits 35:27, the opcode. -/
def opOf (w : Word) : BitVec 9 := w.extractLsb' 27 9

/-- R151: bits 26:23, the AC field. -/
def acOf (w : Word) : AcNum := w.extractLsb' 23 4

/-- R151: bits 22, 21:18 and 17:0, the address fields. -/
def addrOf (w : Word) : AddrSpec := ⟨w.getLsbD 22, w.extractLsb' 18 4, w.extractLsb' 0 18⟩

/-- R151: the word of an opcode and its fields. -/
def wordOf (op : BitVec 9) (ac : AcNum) (a : AddrSpec) : Word :=
  op ++ (ac ++ (BitVec.ofBool a.i ++ (a.x ++ a.y)))

/-- R152: the opcode of the first word of the EXTEND form. -/
def extendOp : BitVec 9 := 0o123#9

/-- R712: `JRST 4,`, opcode 254 with AC field 4, halts the reference dispatcher. -/
def isHalt (w : Word) : Bool := opOf w == 0o254#9 && acOf w == 4#4

/-- What a basic opcode makes of its AC and address fields. -/
abbrev BasicMaker := AcNum → AddrSpec → Instr

/-- What an extended opcode makes of the fields of the two words of R152. -/
abbrev ExtendMaker := AcNum → AddrSpec → AcNum → AddrSpec → Instr

/-- R153: Table 1, ADD and SUB. -/
def addSubRows : List (Nat × BasicMaker) :=
  [(0o270, .add), (0o271, .addi), (0o272, .addm), (0o273, .addb),
   (0o274, .sub), (0o275, .subi), (0o276, .subm), (0o277, .subb)]

/-- R153: Table 1, MOVN and MOVM. -/
def moveRows : List (Nat × BasicMaker) :=
  [(0o210, .movn), (0o211, .movni), (0o212, .movnm), (0o213, .movns),
   (0o214, .movm), (0o215, .movmi), (0o216, .movmm), (0o217, .movms)]

/-- R153: Table 2, AOJ and AOS. -/
def incRows : List (Nat × BasicMaker) :=
  [(0o340, .aoj), (0o341, .aojl), (0o342, .aoje), (0o343, .aojle),
   (0o344, .aoja), (0o345, .aojge), (0o346, .aojn), (0o347, .aojg),
   (0o350, .aos), (0o351, .aosl), (0o352, .aose), (0o353, .aosle),
   (0o354, .aosa), (0o355, .aosge), (0o356, .aosn), (0o357, .aosg)]

/-- R153: Table 2, SOJ and SOS. -/
def decRows : List (Nat × BasicMaker) :=
  [(0o360, .soj), (0o361, .sojl), (0o362, .soje), (0o363, .sojle),
   (0o364, .soja), (0o365, .sojge), (0o366, .sojn), (0o367, .sojg),
   (0o370, .sos), (0o371, .sosl), (0o372, .sose), (0o373, .sosle),
   (0o374, .sosa), (0o375, .sosge), (0o376, .sosn), (0o377, .sosg)]

/-- R153: Table 2. -/
def incDecRows : List (Nat × BasicMaker) :=
  incRows ++ decRows

/-- R153: Table 3. -/
def doubleFixedRows : List (Nat × BasicMaker) :=
  [(0o114, .dadd), (0o115, .dsub), (0o116, .dmul), (0o117, .ddiv), (0o121, .dmovn), (0o125, .dmovnm)]

/-- R153: Table 4. -/
def mulDivRows : List (Nat × BasicMaker) :=
  [(0o220, .imul), (0o221, .imuli), (0o222, .imulm), (0o223, .imulb),
   (0o224, .mul), (0o225, .muli), (0o226, .mulm), (0o227, .mulb),
   (0o230, .idiv), (0o231, .idivi), (0o232, .idivm), (0o233, .idivb),
   (0o234, .div), (0o235, .divi), (0o236, .divm), (0o237, .divb)]

/-- R153: Table 5, f = 0 to 3. -/
def booleanRows0 : List (Nat × BasicMaker) :=
  [(0o400, .setz), (0o401, .setzi), (0o402, .setzm), (0o403, .setzb),
   (0o404, .and), (0o405, .andi), (0o406, .andm), (0o407, .andb),
   (0o410, .andca), (0o411, .andcai), (0o412, .andcam), (0o413, .andcab),
   (0o414, .setm), (0o415, .setmi), (0o416, .setmm), (0o417, .setmb)]

/-- R153: Table 5, f = 4 to 7. -/
def booleanRows4 : List (Nat × BasicMaker) :=
  [(0o420, .andcm), (0o421, .andcmi), (0o422, .andcmm), (0o423, .andcmb),
   (0o424, .seta), (0o425, .setai), (0o426, .setam), (0o427, .setab),
   (0o430, .xor), (0o431, .xori), (0o432, .xorm), (0o433, .xorb),
   (0o434, .ior), (0o435, .iori), (0o436, .iorm), (0o437, .iorb)]

/-- R153: Table 5, f = 8 to 11. -/
def booleanRows8 : List (Nat × BasicMaker) :=
  [(0o440, .andcb), (0o441, .andcbi), (0o442, .andcbm), (0o443, .andcbb),
   (0o444, .eqv), (0o445, .eqvi), (0o446, .eqvm), (0o447, .eqvb),
   (0o450, .setca), (0o451, .setcai), (0o452, .setcam), (0o453, .setcab),
   (0o454, .orca), (0o455, .orcai), (0o456, .orcam), (0o457, .orcab)]

/-- R153: Table 5, f = 12 to 15. -/
def booleanRows12 : List (Nat × BasicMaker) :=
  [(0o460, .setcm), (0o461, .setcmi), (0o462, .setcmm), (0o463, .setcmb),
   (0o464, .orcm), (0o465, .orcmi), (0o466, .orcmm), (0o467, .orcmb),
   (0o470, .orcb), (0o471, .orcbi), (0o472, .orcbm), (0o473, .orcbb),
   (0o474, .seto), (0o475, .setoi), (0o476, .setom), (0o477, .setob)]

/-- R153: Table 5: opcode 400 + 4f + mode. -/
def booleanRows : List (Nat × BasicMaker) :=
  booleanRows0 ++ booleanRows4 ++ booleanRows8 ++ booleanRows12

/-- R153: Table 6. -/
def shiftRows : List (Nat × BasicMaker) :=
  [(0o240, .ash), (0o241, .rot), (0o242, .lsh), (0o244, .ashc), (0o245, .rotc), (0o246, .lshc)]

/-- R153: Table 7, opcodes 140 to 157. -/
def floatAddSubRows : List (Nat × BasicMaker) :=
  [(0o140, .fad), (0o142, .fadm), (0o143, .fadb), (0o144, .fadr), (0o145, .fadri), (0o146, .fadrm), (0o147, .fadrb),
   (0o150, .fsb), (0o152, .fsbm), (0o153, .fsbb), (0o154, .fsbr), (0o155, .fsbri), (0o156, .fsbrm), (0o157, .fsbrb)]

/-- R153: Table 7, opcodes 160 to 177. -/
def floatMulDivRows : List (Nat × BasicMaker) :=
  [(0o160, .fmp), (0o162, .fmpm), (0o163, .fmpb), (0o164, .fmpr), (0o165, .fmpri), (0o166, .fmprm), (0o167, .fmprb),
   (0o170, .fdv), (0o172, .fdvm), (0o173, .fdvb), (0o174, .fdvr), (0o175, .fdvri), (0o176, .fdvrm), (0o177, .fdvrb)]

/-- R153: Table 7, opcodes 140-177; 141, 151, 161 and 171 are not in the core. -/
def floatRows : List (Nat × BasicMaker) :=
  floatAddSubRows ++ floatMulDivRows

/-- R153: Table 7, the other opcodes. -/
def floatFixedPortRows : List (Nat × BasicMaker) :=
  [(0o130, .ufa), (0o132, .fsc), (0o122, .fix), (0o126, .fixr), (0o127, .fltr)]

/-- R153: Table 8. -/
def doubleFloatRows : List (Nat × BasicMaker) :=
  [(0o110, .dfad), (0o111, .dfsb), (0o112, .dfmp), (0o113, .dfdv), (0o102, .gfad), (0o103, .gfsb),
   (0o106, .gfmp), (0o107, .gfdv)]

/-- R153: Table 9: the extended opcodes of R152. -/
def extendRows : List (Nat × ExtendMaker) :=
  [(0o021, .gsngl), (0o022, .gdble), (0o023, .dgfix), (0o024, .gfix), (0o025, .dgfixr), (0o026, .gfixr),
   (0o027, .dgfltr), (0o030, .gfltr), (0o031, .gfsc)]

/-- R153: Table 10; opcode 133 is IBP when its AC field is 0 and ADJBP when it is not. -/
def byteRows : List (Nat × BasicMaker) :=
  [(0o133, fun ac a => if ac = 0 then .ibp a else .adjbp ac a), (0o134, .ildb), (0o135, .ldb), (0o136, .idpb),
   (0o137, .dpb)]

/-- R153: the opcode map, but for the extended opcodes. -/
def basicRows : List (Nat × BasicMaker) :=
  addSubRows ++ moveRows ++ incDecRows ++ doubleFixedRows ++ mulDivRows ++ booleanRows ++
  shiftRows ++ floatRows ++ floatFixedPortRows ++ doubleFloatRows ++ byteRows

/-- Why words are no instruction of the core: an opcode or extended opcode that R153 does not list (R156), or fewer words
than the instruction has. -/
inductive Reject where
  /-- R156, R712 Refused(OP): the opcode, and the extended opcode where the opcode is 123. -/
  | notInCore (op : BitVec 9) (xop : Option (BitVec 9))
  /-- No word, or only the first word of the EXTEND form. -/
  | tooFewWords
deriving DecidableEq, Repr

/-- R150: the instruction of a word in the basic format. -/
def decodeBasic (w : Word) : Except Reject Instr :=
  match basicRows.lookup (opOf w).toNat with
  | some make => .ok (make (acOf w) (addrOf w))
  | none => .error (.notInCore (opOf w) none)

/-- R152: the instruction of an EXTEND word `w` and the extended word `x` it addresses. -/
def decodeExtend (w x : Word) : Except Reject Instr :=
  match extendRows.lookup (opOf x).toNat with
  | some make => .ok (make (acOf w) (addrOf w) (acOf x) (addrOf x))
  | none => .error (.notInCore (opOf w) (some (opOf x)))

/-- R150-R153: the instruction the words begin with, and the words after it. "A decoder tells the two-word form by
OP = 123 alone." -/
def decode (ws : List Word) : Except Reject (Instr × List Word) :=
  match ws with
  | [] => .error .tooFewWords
  | w :: rest =>
    if opOf w = extendOp then
      match rest with
      | [] => .error .tooFewWords
      | x :: rest' => (decodeExtend w x).map fun i => (i, rest')
    else (decodeBasic w).map fun i => (i, rest)

/-! The encoder. -/

/-- The fields an instruction's words hold, by format. -/
inductive Layout where
  | basic (op : BitVec 9) (ac : AcNum) (a : AddrSpec)
  | extend (ac : AcNum) (a0 : AddrSpec) (xop : BitVec 9) (xac : AcNum) (a1 : AddrSpec)
deriving DecidableEq, Repr

/-- R153: the opcode of each instruction, with its fields. -/
def Instr.layout (i : Instr) : Layout :=
  match i with
  | .add ac a => .basic 0o270 ac a
  | .addi ac a => .basic 0o271 ac a
  | .addm ac a => .basic 0o272 ac a
  | .addb ac a => .basic 0o273 ac a
  | .sub ac a => .basic 0o274 ac a
  | .subi ac a => .basic 0o275 ac a
  | .subm ac a => .basic 0o276 ac a
  | .subb ac a => .basic 0o277 ac a
  | .movn ac a => .basic 0o210 ac a
  | .movni ac a => .basic 0o211 ac a
  | .movnm ac a => .basic 0o212 ac a
  | .movns ac a => .basic 0o213 ac a
  | .movm ac a => .basic 0o214 ac a
  | .movmi ac a => .basic 0o215 ac a
  | .movmm ac a => .basic 0o216 ac a
  | .movms ac a => .basic 0o217 ac a
  | .aoj ac a => .basic 0o340 ac a
  | .aojl ac a => .basic 0o341 ac a
  | .aoje ac a => .basic 0o342 ac a
  | .aojle ac a => .basic 0o343 ac a
  | .aoja ac a => .basic 0o344 ac a
  | .aojge ac a => .basic 0o345 ac a
  | .aojn ac a => .basic 0o346 ac a
  | .aojg ac a => .basic 0o347 ac a
  | .aos ac a => .basic 0o350 ac a
  | .aosl ac a => .basic 0o351 ac a
  | .aose ac a => .basic 0o352 ac a
  | .aosle ac a => .basic 0o353 ac a
  | .aosa ac a => .basic 0o354 ac a
  | .aosge ac a => .basic 0o355 ac a
  | .aosn ac a => .basic 0o356 ac a
  | .aosg ac a => .basic 0o357 ac a
  | .soj ac a => .basic 0o360 ac a
  | .sojl ac a => .basic 0o361 ac a
  | .soje ac a => .basic 0o362 ac a
  | .sojle ac a => .basic 0o363 ac a
  | .soja ac a => .basic 0o364 ac a
  | .sojge ac a => .basic 0o365 ac a
  | .sojn ac a => .basic 0o366 ac a
  | .sojg ac a => .basic 0o367 ac a
  | .sos ac a => .basic 0o370 ac a
  | .sosl ac a => .basic 0o371 ac a
  | .sose ac a => .basic 0o372 ac a
  | .sosle ac a => .basic 0o373 ac a
  | .sosa ac a => .basic 0o374 ac a
  | .sosge ac a => .basic 0o375 ac a
  | .sosn ac a => .basic 0o376 ac a
  | .sosg ac a => .basic 0o377 ac a
  | .dadd ac a => .basic 0o114 ac a
  | .dsub ac a => .basic 0o115 ac a
  | .dmul ac a => .basic 0o116 ac a
  | .ddiv ac a => .basic 0o117 ac a
  | .dmovn ac a => .basic 0o121 ac a
  | .dmovnm ac a => .basic 0o125 ac a
  | .imul ac a => .basic 0o220 ac a
  | .imuli ac a => .basic 0o221 ac a
  | .imulm ac a => .basic 0o222 ac a
  | .imulb ac a => .basic 0o223 ac a
  | .mul ac a => .basic 0o224 ac a
  | .muli ac a => .basic 0o225 ac a
  | .mulm ac a => .basic 0o226 ac a
  | .mulb ac a => .basic 0o227 ac a
  | .idiv ac a => .basic 0o230 ac a
  | .idivi ac a => .basic 0o231 ac a
  | .idivm ac a => .basic 0o232 ac a
  | .idivb ac a => .basic 0o233 ac a
  | .div ac a => .basic 0o234 ac a
  | .divi ac a => .basic 0o235 ac a
  | .divm ac a => .basic 0o236 ac a
  | .divb ac a => .basic 0o237 ac a
  | .setz ac a => .basic 0o400 ac a
  | .setzi ac a => .basic 0o401 ac a
  | .setzm ac a => .basic 0o402 ac a
  | .setzb ac a => .basic 0o403 ac a
  | .and ac a => .basic 0o404 ac a
  | .andi ac a => .basic 0o405 ac a
  | .andm ac a => .basic 0o406 ac a
  | .andb ac a => .basic 0o407 ac a
  | .andca ac a => .basic 0o410 ac a
  | .andcai ac a => .basic 0o411 ac a
  | .andcam ac a => .basic 0o412 ac a
  | .andcab ac a => .basic 0o413 ac a
  | .setm ac a => .basic 0o414 ac a
  | .setmi ac a => .basic 0o415 ac a
  | .setmm ac a => .basic 0o416 ac a
  | .setmb ac a => .basic 0o417 ac a
  | .andcm ac a => .basic 0o420 ac a
  | .andcmi ac a => .basic 0o421 ac a
  | .andcmm ac a => .basic 0o422 ac a
  | .andcmb ac a => .basic 0o423 ac a
  | .seta ac a => .basic 0o424 ac a
  | .setai ac a => .basic 0o425 ac a
  | .setam ac a => .basic 0o426 ac a
  | .setab ac a => .basic 0o427 ac a
  | .xor ac a => .basic 0o430 ac a
  | .xori ac a => .basic 0o431 ac a
  | .xorm ac a => .basic 0o432 ac a
  | .xorb ac a => .basic 0o433 ac a
  | .ior ac a => .basic 0o434 ac a
  | .iori ac a => .basic 0o435 ac a
  | .iorm ac a => .basic 0o436 ac a
  | .iorb ac a => .basic 0o437 ac a
  | .andcb ac a => .basic 0o440 ac a
  | .andcbi ac a => .basic 0o441 ac a
  | .andcbm ac a => .basic 0o442 ac a
  | .andcbb ac a => .basic 0o443 ac a
  | .eqv ac a => .basic 0o444 ac a
  | .eqvi ac a => .basic 0o445 ac a
  | .eqvm ac a => .basic 0o446 ac a
  | .eqvb ac a => .basic 0o447 ac a
  | .setca ac a => .basic 0o450 ac a
  | .setcai ac a => .basic 0o451 ac a
  | .setcam ac a => .basic 0o452 ac a
  | .setcab ac a => .basic 0o453 ac a
  | .orca ac a => .basic 0o454 ac a
  | .orcai ac a => .basic 0o455 ac a
  | .orcam ac a => .basic 0o456 ac a
  | .orcab ac a => .basic 0o457 ac a
  | .setcm ac a => .basic 0o460 ac a
  | .setcmi ac a => .basic 0o461 ac a
  | .setcmm ac a => .basic 0o462 ac a
  | .setcmb ac a => .basic 0o463 ac a
  | .orcm ac a => .basic 0o464 ac a
  | .orcmi ac a => .basic 0o465 ac a
  | .orcmm ac a => .basic 0o466 ac a
  | .orcmb ac a => .basic 0o467 ac a
  | .orcb ac a => .basic 0o470 ac a
  | .orcbi ac a => .basic 0o471 ac a
  | .orcbm ac a => .basic 0o472 ac a
  | .orcbb ac a => .basic 0o473 ac a
  | .seto ac a => .basic 0o474 ac a
  | .setoi ac a => .basic 0o475 ac a
  | .setom ac a => .basic 0o476 ac a
  | .setob ac a => .basic 0o477 ac a
  | .ash ac a => .basic 0o240 ac a
  | .rot ac a => .basic 0o241 ac a
  | .lsh ac a => .basic 0o242 ac a
  | .ashc ac a => .basic 0o244 ac a
  | .rotc ac a => .basic 0o245 ac a
  | .lshc ac a => .basic 0o246 ac a
  | .fad ac a => .basic 0o140 ac a
  | .fadm ac a => .basic 0o142 ac a
  | .fadb ac a => .basic 0o143 ac a
  | .fadr ac a => .basic 0o144 ac a
  | .fadri ac a => .basic 0o145 ac a
  | .fadrm ac a => .basic 0o146 ac a
  | .fadrb ac a => .basic 0o147 ac a
  | .fsb ac a => .basic 0o150 ac a
  | .fsbm ac a => .basic 0o152 ac a
  | .fsbb ac a => .basic 0o153 ac a
  | .fsbr ac a => .basic 0o154 ac a
  | .fsbri ac a => .basic 0o155 ac a
  | .fsbrm ac a => .basic 0o156 ac a
  | .fsbrb ac a => .basic 0o157 ac a
  | .fmp ac a => .basic 0o160 ac a
  | .fmpm ac a => .basic 0o162 ac a
  | .fmpb ac a => .basic 0o163 ac a
  | .fmpr ac a => .basic 0o164 ac a
  | .fmpri ac a => .basic 0o165 ac a
  | .fmprm ac a => .basic 0o166 ac a
  | .fmprb ac a => .basic 0o167 ac a
  | .fdv ac a => .basic 0o170 ac a
  | .fdvm ac a => .basic 0o172 ac a
  | .fdvb ac a => .basic 0o173 ac a
  | .fdvr ac a => .basic 0o174 ac a
  | .fdvri ac a => .basic 0o175 ac a
  | .fdvrm ac a => .basic 0o176 ac a
  | .fdvrb ac a => .basic 0o177 ac a
  | .ufa ac a => .basic 0o130 ac a
  | .fsc ac a => .basic 0o132 ac a
  | .fix ac a => .basic 0o122 ac a
  | .fixr ac a => .basic 0o126 ac a
  | .fltr ac a => .basic 0o127 ac a
  | .dfad ac a => .basic 0o110 ac a
  | .dfsb ac a => .basic 0o111 ac a
  | .dfmp ac a => .basic 0o112 ac a
  | .dfdv ac a => .basic 0o113 ac a
  | .gfad ac a => .basic 0o102 ac a
  | .gfsb ac a => .basic 0o103 ac a
  | .gfmp ac a => .basic 0o106 ac a
  | .gfdv ac a => .basic 0o107 ac a
  | .gsngl ac a0 xac a1 => .extend ac a0 0o021 xac a1
  | .gdble ac a0 xac a1 => .extend ac a0 0o022 xac a1
  | .dgfix ac a0 xac a1 => .extend ac a0 0o023 xac a1
  | .gfix ac a0 xac a1 => .extend ac a0 0o024 xac a1
  | .dgfixr ac a0 xac a1 => .extend ac a0 0o025 xac a1
  | .gfixr ac a0 xac a1 => .extend ac a0 0o026 xac a1
  | .dgfltr ac a0 xac a1 => .extend ac a0 0o027 xac a1
  | .gfltr ac a0 xac a1 => .extend ac a0 0o030 xac a1
  | .gfsc ac a0 xac a1 => .extend ac a0 0o031 xac a1
  | .ibp a => .basic 0o133 0 a
  | .adjbp ac a => .basic 0o133 ac a
  | .ildb ac a => .basic 0o134 ac a
  | .ldb ac a => .basic 0o135 ac a
  | .idpb ac a => .basic 0o136 ac a
  | .dpb ac a => .basic 0o137 ac a

/-- R151, R152: the words of an instruction, the first word first. -/
def encode (i : Instr) : List Word :=
  match i.layout with
  | .basic op ac a => [wordOf op ac a]
  | .extend ac a0 xop xac a1 => [wordOf extendOp ac a0, wordOf xop xac a1]

/-! The host's question: what the decoder reads from the bits of an opcode-table row. -/

/-- The words of an instruction whose bits are `w`, 36 bits a word, the first word lowest. The rows of format "extend"
number the bits of the EXTENDED word (R152): where the low 36 bits have an extended opcode, that word follows a first word
`EXTEND 0,` (log entry 16). -/
def tableWords (w : Nat) : List Word :=
  let w0 := BitVec.ofNat 36 w
  if opOf w0 = extendOp then [w0, BitVec.ofNat 36 (w / 2 ^ 36)]
  else if (extendRows.lookup (opOf w0).toNat).isSome then [wordOf extendOp 0 ⟨false, 0, 0⟩, w0]
  else [w0]

/-- The instruction the decoder reads from an instruction of `nbits` bits `w`, numbered as spec/opcode_table.json numbers
them; the bits above `nbits` are 0, so `nbits` says nothing that `w` does not. -/
def decodeTableWord (_nbits w : Nat) : Option Instr :=
  match decode (tableWords w) with
  | .ok (i, _) => some i
  | .error _ => none

end Sys2Proof
end

