-- ==== Sys2Proof/Machine/State.lean ====
section
/-! DEFINITION. The state of the machine: the reference dispatcher of 70_reset_and_hazards.md R710 around the core, which
holds none (10_state.md R50). With it the reasons a step can stop, and the state after reset (R701). -/

namespace Sys2Proof.Machine

/-- One written word of memory: its address and contents. The spec's smallest addressable unit is the 36-bit word
(R100), so a cell holds a word (log entry 6). -/
abbrev Cell := Nat × Word

/-- R100, R701: the written words of memory, in the canonical form of `Memory.wf`. An address with no cell is unwritten and
holds no value. Addresses 0 to 17 octal never stand here: they are the accumulators (R710). -/
abbrev Memory := List Cell

/-- R105, N22: what a failed memory request reports, passed through unchanged by the core (log entry 18). -/
inductive MemInfo where
  /-- The word at this address is unwritten (R701). -/
  | unwritten (address : MemAddr)
  /-- The indirect word at this address, read while resolving a global pointer, has bits 35:34 = 11 (R502, log entry 14). -/
  | malformedIndirect (address : MemAddr)
  /-- The memory collaborator fails a write of the core at this address (R105, log entry 7). -/
  | writeRefused (address : MemAddr)
deriving DecidableEq, Repr

/-- Why the machine stops as Faulted, or never steps again (R710-R712). -/
inductive Fault where
  /-- R712: Faulted(ReadUnwritten(address)), raised by a fetch, by the effective-address calculation or by filling a port.
  Safe: the spec's own stop (D20). -/
  | readUnwritten (address : MemAddr)
  /-- R507, R712: Faulted(BPTrap(form, P, S)), raised by the six byte instructions. Safe: the spec's own stop. -/
  | bpTrap (form : BpForm) (p s : Nat)
  /-- R105, R712: Faulted(MemFault(info)), raised by the six byte instructions. Safe: the spec's own stop. -/
  | memFault (info : MemInfo)
  /-- R711: an indirection cycle; the dispatcher never steps again. A stuck state, raised by the effective-address
  calculation of any instruction and by `mem.resolve`. Safe: the machine does not go on either (log entry 10). -/
  | indirectionCycle
deriving DecidableEq, Repr

/-- Why the machine has no meaning for what it fetched. -/
inductive Refusal where
  /-- An instruction of the table that has no meaning yet. Safe. No arm raises it any more. -/
  | notModelled (mnemonic : String)
  /-- R156, R712 Refused(OP): not in the core; the opcode, and the extended opcode where the opcode is 123. Raised by
  `step` for words no row lists, and by the G-format instructions when HAS_GFLOAT is false. Safe: the spec asks for it. -/
  | notInCore (op : BitVec 9) (xop : Option (BitVec 9))
deriving DecidableEq, Repr

/-- R710: the run state. A step that stops answers `fault` or `refused`, so that only Running and Halted are ever written
by a step (log entry 8). -/
inductive RunState where
  | running
  | halted
  | faulted (reason : Fault)
  | refused (reason : Refusal)
deriving DecidableEq, Repr

/-- R710: the state of the reference dispatcher, and the parameters the core was constructed with (R9, log entry 3). -/
structure State where
  /-- R51, R710: AC 0 to 17 octal. -/
  acs   : Vector Word 16
  /-- R52, R710: the program counter. -/
  pc    : Half
  /-- R60, R64: the flag register. -/
  flags : Flags
  /-- R710: the run state. -/
  run   : RunState
  /-- R100, R710: memory. -/
  mem   : Memory
  /-- R105: the addresses at which the memory collaborator fails a MemWrite of the core. The MODEL's own field for that
  collaborator, which no step writes; empty after reset (log entry 7). -/
  writeFaults : List Nat
  /-- R9: the configuration parameters, which no step writes (R66). -/
  cfg   : Params
deriving DecidableEq, Repr

/-- The machine after reset with given parameters (R701): flags clear, nothing written in memory. DESIGN CHOICE for
what the program image gives: accumulators 0 (log entry 1), start address 100 octal (log entry 2); for the memory
collaborator, which fails no write (log entry 7); and for the run state, of which R701 has no row: Running (log entry 26). -/
def State.resetWith (cfg : Params) : State where
  acs := Vector.replicate 16 0
  pc := 0o100
  flags := .none
  run := .running
  mem := []
  writeFaults := []
  cfg := cfg

/-- R701: the machine after reset. -/
def State.reset : State := .resetWith .standard

end Sys2Proof.Machine
end

