-- ==== Sys2Proof/Machine/Flags.lean ====
section
/-! DEFINITION. Flag sets and every flag computation of the spec: the named combinations (10_state.md R63), the adder
and its flags (40_fixed_addsub.md R200, R201), the exponent-range flags (43_normalize_round.md R366) and the PC word (R64). -/

namespace Sys2Proof

/-- R60: the union of two flag sets. -/
def Flags.union (a b : Flags) : Flags where
  carry0 := a.carry0 || b.carry0
  carry1 := a.carry1 || b.carry1
  overflow := a.overflow || b.overflow
  trap1 := a.trap1 || b.trap1
  fov := a.fov || b.fov
  fxu := a.fxu || b.fxu
  noDiv := a.noDiv || b.noDiv

/-- R63: OVF = {Overflow, Trap1}. -/
def Flags.ovf : Flags := { Flags.none with overflow := true, trap1 := true }

/-- R63: DIVF = {NoDiv, Overflow, Trap1}. -/
def Flags.divf : Flags := { Flags.none with noDiv := true, overflow := true, trap1 := true }

/-- R63: FOVF = {FOV, Overflow, Trap1}. -/
def Flags.fovf : Flags := { Flags.none with fov := true, overflow := true, trap1 := true }

/-- R63: FXUF = {FXU, FOV, Overflow, Trap1}. -/
def Flags.fxuf : Flags := { Flags.none with fxu := true, fov := true, overflow := true, trap1 := true }

/-- R63: FDIVF = {NoDiv, FOV, Overflow, Trap1}. -/
def Flags.fdivf : Flags := { Flags.none with noDiv := true, fov := true, overflow := true, trap1 := true }

/-- {Carry0, Carry1}, reported by negating zero (R206). -/
def Flags.carries : Flags := { Flags.none with carry0 := true, carry1 := true }

/-- {Carry1}, the addition of NEG_MAXNEG_CARRY1 (R206). -/
def Flags.carry1Only : Flags := { Flags.none with carry1 := true }

/-- The flag set `f` if `b` holds, else none: one conditional `report`. -/
def Flags.when (b : Bool) (f : Flags) : Flags := if b then f else .none

namespace Machine

/-- R200: what the n-bit adder returns. -/
structure Sum (n : Nat) where
  r  : BitVec n
  c0 : Bool
  c1 : Bool
deriving DecidableEq, Repr

/-- R200: ADDC_n(a, b, cin), with the carry out of the sign bit and the carry into it. -/
def addc (n : Nat) (a b : BitVec n) (cin : Nat) : Sum n where
  r := BitVec.ofNat n (a.toNat + b.toNat + cin)
  c0 := decide (2 ^ n ≤ a.toNat + b.toNat + cin)
  c1 := decide (2 ^ (n - 1) ≤ a.toNat % 2 ^ (n - 1) + b.toNat % 2 ^ (n - 1) + cin)

/-- R201: ADDFLAGS(c0, c1). -/
def addFlags (c0 c1 : Bool) : Flags :=
  { Flags.none with carry0 := c0, carry1 := c1, overflow := c0 != c1, trap1 := c0 != c1 }

/-- R206, R207, R213: the flags of negating the most-negative value. -/
def negMaxnegFlags (cfg : Params) : Flags :=
  Flags.ovf.union (.when cfg.negMaxnegCarry1 .carry1Only)

/-- R366: the flags of a final exponent E against the format's Emax. -/
def rangeFlags (emax : Nat) (e : Int) : Flags :=
  if (emax : Int) < e then .fovf else if e < 0 then .fxuf else .none

/-- R64: the flag register and the program counter as the PC word: Overflow 35, Carry0 34, Carry1 33, FOV 32, Trap1 25,
FXU 24, NoDiv 23, PC in bits 17:0. The bits R64 names no flag for are 0 (log entry 22). -/
def pcWord (f : Flags) (pc : Half) : Word :=
  BitVec.ofBool f.overflow ++ BitVec.ofBool f.carry0 ++ BitVec.ofBool f.carry1 ++ BitVec.ofBool f.fov ++ 0#6 ++
    BitVec.ofBool f.trap1 ++ BitVec.ofBool f.fxu ++ BitVec.ofBool f.noDiv ++ 0#5 ++ pc

end Machine

end Sys2Proof
end

