-- ==== Sys2Proof/Machine/Ops.lean ====
section
/-! DEFINITION. The named operations over the state: memory with the accumulators as its first sixteen words (R107, R710),
accumulators, the flag register (R64), the effective address (R711), the end of an operation (R712-R714) with its
exceptional statuses, and the fetch of an instruction's words (R712). -/

namespace Sys2Proof.Machine

/-- The three outcomes of a step of this machine. -/
abbrev Out := Host.Outcome State Fault Refusal

/-! ## Memory -/

/-- The word at an address, or nothing where the address is unwritten (R701, D20). -/
def Memory.read (m : Memory) (a : Nat) : Option Word :=
  match m with
  | [] => none
  | (k, v) :: rest => if k = a then some v else Memory.read rest a

/-- The memory after the word `w` is stored at an address; the cells stay in rising order. -/
def Memory.write (m : Memory) (a : Nat) (w : Word) : Memory :=
  match m with
  | [] => [(a, w)]
  | (k, v) :: rest =>
    if a < k then (a, w) :: (k, v) :: rest
    else if a = k then (a, w) :: rest
    else (k, v) :: Memory.write rest a w

/-- Every address of the cells is above `lo` and below `hi`, each above the one before it. -/
def Memory.rising (lo hi : Nat) (m : Memory) : Bool :=
  match m with
  | [] => true
  | (k, _) :: rest => decide (lo < k) && decide (k < hi) && Memory.rising k hi rest

/-- The canonical form of memory: strictly rising addresses, none of them an accumulator's (R710) and all of them in the
address space (R100). An unlisted address reads as no value, so that no cell can say the same as its absence. -/
def Memory.wf (hi : Nat) (m : Memory) : Bool := Memory.rising 15 hi m

/-- R100: the number of words of the address space. -/
def Params.space (cfg : Params) : Nat := if cfg.extended then 2 ^ 30 else 2 ^ 18

/-- The invariant of the state: its memory has the canonical form. -/
def State.wf (s : State) : Bool := Memory.wf (Params.space s.cfg) s.mem

/-! ## Accumulators and words -/

/-- R51: the contents of an accumulator. -/
def State.ac (s : State) (n : AcNum) : Word := s.acs[n.toNat]'n.isLt

/-- The state after a word is stored to an accumulator. No accumulator is hardwired (R51). -/
def State.setAc (s : State) (n : AcNum) (w : Word) : State :=
  { s with acs := s.acs.set n.toNat w n.isLt }

/-- R105, R710: MemRead. An address up to 17 octal reads the accumulator; an unwritten word reads as nothing. -/
def State.readWord (s : State) (a : MemAddr) : Option Word :=
  if a.toNat < 16 then some (s.ac (a.setWidth 4)) else Memory.read s.mem a.toNat

/-- R105, R710: the state after a word is stored at an address. An address up to 17 octal writes the accumulator. -/
def State.writeWord (s : State) (a : MemAddr) (w : Word) : State :=
  if a.toNat < 16 then s.setAc (a.setWidth 4) w else { s with mem := Memory.write s.mem a.toNat w }

/-- R105: whether the memory collaborator fails a MemWrite of the core at an address. The dispatcher's own stores of R713 are
no such request and do not fail (log entry 7). -/
def State.writeFails (s : State) (a : MemAddr) : Bool := s.writeFaults.contains a.toNat

/-- The state with its program counter at `pc`. -/
def State.setPc (s : State) (pc : Half) : State := { s with pc := pc }

/-- R64, R712: the flag delta of an operation is ORed into the flag register; flags are sticky. -/
def State.report (s : State) (f : Flags) : State := { s with flags := s.flags.union f }

/-- An 18-bit address as an address of the memory (log entry 13). -/
def loc (e : Half) : MemAddr := e.setWidth 30

/-- R102, R713: the address E + 1, modulo the address space: 2^18, or 2^30 when EXTENDED (log entry 15). -/
def nextLoc (cfg : Params) (e : Half) : MemAddr := if cfg.extended then loc e + 1 else loc (e + 1)

/-! ## The effective address -/

/-- Why an address calculation does not answer an address. -/
inductive AddrError where
  /-- A memory request of it failed. -/
  | fault (info : MemInfo)
  /-- R711: an indirection cycle; it never answers. -/
  | cycle
deriving DecidableEq, Repr

/-- R711: the address of one turn of the loop, Y plus the right half of the index register when X is not 0. -/
def indexed (s : State) (a : AddrSpec) : Half := if a.x = 0 then a.y else a.y + rh (s.ac a.x)

/-- R711: the loop, for at most `fuel` indirect words. -/
def eaLoop (s : State) (fuel : Nat) (a : AddrSpec) : Except AddrError Half :=
  match fuel with
  | 0 => .error .cycle
  | fuel + 1 =>
    if a.i then
      match s.readWord (loc (indexed s a)) with
      | some w => eaLoop s fuel (addrOf w)
      | none => .error (.fault (.unwritten (loc (indexed s a))))
    else .ok (indexed s a)

/-- R711: ea(w) of the address fields of a word. Each indirect word is named by its 18-bit address, so a loop that has
read 2^18 + 1 of them has read one twice and never ends (log entry 10). -/
def effAddr (s : State) (a : AddrSpec) : Except AddrError Half := eaLoop s (2 ^ 18 + 2) a

/-- R712: what an address calculation of the dispatcher that does not answer means for the run. -/
def AddrError.toFault (e : AddrError) : Fault :=
  match e with
  | .fault (.unwritten a) => .readUnwritten a
  | .fault (.malformedIndirect a) => .memFault (.malformedIndirect a)
  | .fault (.writeRefused a) => .memFault (.writeRefused a)
  | .cycle => .indirectionCycle

/-! ## The end of an operation -/

/-- R55, R56: the outcome of one operation of the core, its results of type `α`. -/
inductive CoreOutcome (α : Type) where
  /-- Done: results are written, flags reported. -/
  | done (result : α) (flags : Flags)
  /-- NoDivide: no result is written, flags reported. -/
  | noDivide (flags : Flags)
  /-- NoStore: no result is written, flags reported. -/
  | noStore (flags : Flags)
  /-- BPTrap(form, P, S): no result, no memory write, no flags. -/
  | bpTrap (form : BpForm) (p s : Nat)
  /-- MemFault(info): a memory request failed; no result is written. -/
  | memFault (info : MemInfo)
  /-- `mem.resolve` never answers (R711), so the operation never ends. -/
  | noAnswer
deriving DecidableEq, Repr

/-- R712-R714, and the one place where an exceptional status is taken: Done stores the results and goes to the next PC;
NoDivide and NoStore store nothing, keep their flags and go to PC + 1 (R714, D34); BPTrap and MemFault stop the run as
Faulted. The core has no trap entry and no trap return (R606, R607). -/
def retireTo {α : Type} (s : State) (o : CoreOutcome α) (store : α → State → State) (next : α → Half) : Out :=
  match o with
  | .done r f => .next ((store r (s.report f)).setPc (next r))
  | .noDivide f => .next ((s.report f).setPc (s.pc + 1))
  | .noStore f => .next ((s.report f).setPc (s.pc + 1))
  | .bpTrap form p sz => .fault (.bpTrap form p sz)
  | .memFault info => .fault (.memFault info)
  | .noAnswer => .fault .indirectionCycle

/-- R714: the end of every operation but the jumps and skips of R162; the next PC is PC + 1. -/
def retire {α : Type} (s : State) (o : CoreOutcome α) (store : α → State → State) : Out :=
  retireTo s o store fun _ => s.pc + 1

/-! ## Fetch -/

/-- R712: the word at an address, or Faulted(ReadUnwritten(address)). -/
def wordAt (s : State) (a : MemAddr) : Except Fault Word :=
  match s.readWord a with
  | some w => .ok w
  | none => .error (.readUnwritten a)

/-- R712: ea of a fetched word, or the fault that ends the run. -/
def fetchAddr (s : State) (w : Word) : Except Fault Half :=
  match effAddr s (addrOf w) with
  | .ok e => .ok e
  | .error e => .error e.toFault

/-- R712: the words of the instruction at the program counter. E is computed first; a word that is not HALT and has
opcode 123 is followed by the word at E (R152), whose own E is computed before anything is looked up. -/
def fetchWords (s : State) : Except Fault (List Word) :=
  match wordAt s (loc s.pc) with
  | .error f => .error f
  | .ok w =>
    match fetchAddr s w with
    | .error f => .error f
    | .ok e =>
      if opOf w = extendOp then
        match wordAt s (loc e) with
        | .error f => .error f
        | .ok x =>
          match fetchAddr s x with
          | .error f => .error f
          | .ok _ => .ok [w, x]
      else .ok [w]

/-- R712: whether fetched words are HALT: one word, `JRST 4,`. -/
def isHaltWords (ws : List Word) : Bool :=
  match ws with
  | [w] => isHalt w
  | _ => false

/-- R712: HALT; the run state becomes Halted and nothing else changes. -/
def haltRun (s : State) : State := { s with run := .halted }

/-- R156, R712: the refusal of words that are no instruction of the core. -/
def rejectRefusal (r : Reject) : Refusal :=
  match r with
  | .notInCore op xop => .notInCore op xop
  | .tooFewWords => .notInCore extendOp none

/-- The state with the words of one instruction stored where the next fetch reads them: the first at PC, and the extended
word of R152 at the address the first word computes (log entries 16 and 17). -/
def placeWords (s : State) (ws : List Word) : State :=
  match ws with
  | [] => s
  | [w] => s.writeWord (loc s.pc) w
  | w :: x :: _ =>
    let s' := s.writeWord (loc s.pc) w
    match effAddr s' (addrOf w) with
    | .ok e => s'.writeWord (loc e) x
    | .error _ => s'

end Sys2Proof.Machine
end

