-- ==== Sys2Proof/Machine/Operands.lean ====
section
/-! DEFINITION. Operand forms and routing: which ports the dispatcher fills and where it stores results
(30_encoding.md R154, R155, R158-R163; 70_reset_and_hazards.md R713, R714). One shared operation for each mode group; an
instruction is one of them over its own operation of the core. -/

namespace Sys2Proof.Machine

/-! ## Filling the ports -/

/-- R711, R712: with the effective address E of the instruction, or the stop of a calculation that does not answer. -/
def withE (s : State) (a : AddrSpec) (k : Half → Out) : Out :=
  match effAddr s a with
  | .ok e => k e
  | .error err => .fault err.toFault

/-- R712: with the word at an address, or Faulted(ReadUnwritten(address)). -/
def withWord (s : State) (a : MemAddr) (k : Word → Out) : Out :=
  match s.readWord a with
  | some w => k w
  | none => .fault (.readUnwritten a)

/-- R102: with the double word C(E), C(E+1), read in that order (log entry 19). -/
def withPair (s : State) (e : Half) (k : Word × Word → Out) : Out :=
  withWord s (loc e) fun hi => withWord s (nextLoc s.cfg e) fun lo => k (hi, lo)

/-- R102: the double word C(AC), C(AC+1). -/
def acPair (s : State) (ac : AcNum) : Word × Word := (s.ac ac, s.ac (ac + 1))

/-- R102, R258: the quad word C(AC) to C(AC+3). -/
def acQuad (s : State) (ac : AcNum) : (Word × Word) × (Word × Word) := (acPair s ac, acPair s (ac + 2))

/-- R154: the word `0,,E`. -/
def immWord (e : Half) : Word := halves 0 e

/-- R154: the word `E,,0` of the floating immediate modes. -/
def immFloat (e : Half) : Word := halves e 0

/-- R155, R320: the count `sext_9 (E[17], E[7:0])` of shifts and scales. -/
def countOf (e : Half) : Int := (e.extractLsb' 17 1 ++ e.extractLsb' 0 8 : BitVec 9).toInt

/-! ## Storing the results -/

/-- R102, R163: a two-word result to AC, AC+1, modulo 16 (R713). -/
def storePair (ac : AcNum) (r : Word × Word) (s : State) : State := (s.setAc ac r.1).setAc (ac + 1) r.2

/-- R163: a four-word result to AC to AC+3, modulo 16. -/
def storeQuad (ac : AcNum) (r : (Word × Word) × (Word × Word)) (s : State) : State :=
  storePair (ac + 2) r.2 (storePair ac r.1 s)

/-- R163: a two-word result to E, E+1 (DMOVNM). -/
def storeMemPair (e : Half) (r : Word × Word) (s : State) : State :=
  (s.writeWord (loc e) r.1).writeWord (nextLoc s.cfg e) r.2

/-- R158: the modes of the arithmetic groups; the low two opcode bits. -/
inductive Mode where
  | basic | immediate | memory | both
deriving DecidableEq, Repr

/-- R158: with the operand M[0] of a mode: C(E), or the immediate word. -/
def withModeOperand (m : Mode) (imm : Half → Word) (s : State) (e : Half) (k : Word → Out) : Out :=
  match m with
  | .immediate => k (imm e)
  | .basic => withWord s (loc e) k
  | .memory => withWord s (loc e) k
  | .both => withWord s (loc e) k

/-- R158: one result to AC, to E, or to E and then AC (R713). -/
def storeMode (m : Mode) (ac : AcNum) (e : Half) (r : Word) (s : State) : State :=
  match m with
  | .basic => s.setAc ac r
  | .immediate => s.setAc ac r
  | .memory => s.writeWord (loc e) r
  | .both => (s.writeWord (loc e) r).setAc ac r

/-- R160: two results of MUL, IDIV and DIV: both to AC, AC+1, the first to E, or the first to E and then both. -/
def storeModePair (m : Mode) (ac : AcNum) (e : Half) (r : Word × Word) (s : State) : State :=
  match m with
  | .basic => storePair ac r s
  | .immediate => storePair ac r s
  | .memory => s.writeWord (loc e) r.1
  | .both => storePair ac r (s.writeWord (loc e) r.1)

/-- R161: the modes of MOVN and MOVM. -/
inductive MoveMode where
  | basic | immediate | memory | self
deriving DecidableEq, Repr

/-- R161: with the operand M[0] of a move mode: C(E), `0,,E`, C(AC) or C(E). -/
def withMoveOperand (m : MoveMode) (ac : AcNum) (s : State) (e : Half) (k : Word → Out) : Out :=
  match m with
  | .basic => withWord s (loc e) k
  | .immediate => k (immWord e)
  | .memory => k (s.ac ac)
  | .self => withWord s (loc e) k

/-- R161, R162: to E, and also to AC when the AC field is not 0. -/
def storeSelf (ac : AcNum) (e : Half) (r : Word) (s : State) : State :=
  if ac = 0 then s.writeWord (loc e) r else (s.writeWord (loc e) r).setAc ac r

/-- R161: the result of a move mode to AC, AC, E, or E and AC. -/
def storeMove (m : MoveMode) (ac : AcNum) (e : Half) (r : Word) (s : State) : State :=
  match m with
  | .basic => s.setAc ac r
  | .immediate => s.setAc ac r
  | .memory => s.writeWord (loc e) r
  | .self => storeSelf ac e r s

/-! ## Routing groups -/

/-- R158, R159: A[0] = C(AC), M[0] by the mode, one result by the mode. -/
def arithGroup (m : Mode) (imm : Half → Word) (core : Word → Word → CoreOutcome Word) (ac : AcNum) (a : AddrSpec)
    (s : State) : Out :=
  withE s a fun e => withModeOperand m imm s e fun b => retire s (core (s.ac ac) b) (storeMode m ac e)

/-- R160: MUL and IDIV; A[0] = C(AC), M[0] by the mode, two results by the mode. -/
def pairGroup (m : Mode) (core : Word → Word → CoreOutcome (Word × Word)) (ac : AcNum) (a : AddrSpec) (s : State) : Out :=
  withE s a fun e => withModeOperand m immWord s e fun b => retire s (core (s.ac ac) b) (storeModePair m ac e)

/-- R160: DIV; A[0..1] = C(AC), C(AC+1), M[0] by the mode, two results by the mode. -/
def divGroup (m : Mode) (core : Word × Word → Word → CoreOutcome (Word × Word)) (ac : AcNum) (a : AddrSpec)
    (s : State) : Out :=
  withE s a fun e => withModeOperand m immWord s e fun b => retire s (core (acPair s ac) b) (storeModePair m ac e)

/-- R161: M[0] by the move mode, one result by the move mode. -/
def moveGroup (m : MoveMode) (core : Word → CoreOutcome Word) (ac : AcNum) (a : AddrSpec) (s : State) : Out :=
  withE s a fun e => withMoveOperand m ac s e fun x => retire s (core x) (storeMove m ac e)

/-- R162: the conditions on the signed result, by the low three opcode bits. -/
inductive Cond where
  | never | lt | eq | le | always | ge | ne | gt
deriving DecidableEq, Repr

/-- R162: whether a condition holds of v = s36(R[0]). -/
def Cond.holds (c : Cond) (v : Int) : Bool :=
  match c with
  | .never => false
  | .lt => decide (v < 0)
  | .eq => decide (v = 0)
  | .le => decide (v ≤ 0)
  | .always => true
  | .ge => decide (0 ≤ v)
  | .ne => decide (v ≠ 0)
  | .gt => decide (0 < v)

/-- R162, R714: AOJ and SOJ; from and to C(AC), then to E if the condition holds. -/
def jumpGroup (c : Cond) (core : Word → CoreOutcome Word) (ac : AcNum) (a : AddrSpec) (s : State) : Out :=
  withE s a fun e =>
    retireTo s (core (s.ac ac)) (fun r s' => s'.setAc ac r) fun r => if c.holds (s36 r) then e else s.pc + 1

/-- R162, R714: AOS and SOS; from and to C(E), also to AC when the AC field is not 0, then skip if the condition holds. -/
def skipGroup (c : Cond) (core : Word → CoreOutcome Word) (ac : AcNum) (a : AddrSpec) (s : State) : Out :=
  withE s a fun e => withWord s (loc e) fun x =>
    retireTo s (core x) (storeSelf ac e) fun r => if c.holds (s36 r) then s.pc + 2 else s.pc + 1

/-- R163: two words from AC and two from E, two results to AC (DADD, DSUB and the D and G arithmetic). -/
def doubleGroup (core : Word × Word → Word × Word → CoreOutcome (Word × Word)) (ac : AcNum) (a : AddrSpec)
    (s : State) : Out :=
  withE s a fun e => withPair s e fun b => retire s (core (acPair s ac) b) (storePair ac)

/-- R163: one word from AC and the count from E, one result to AC (ASH, ROT, LSH, FSC). -/
def countGroup (core : Word → Int → CoreOutcome Word) (ac : AcNum) (a : AddrSpec) (s : State) : Out :=
  withE s a fun e => retire s (core (s.ac ac) (countOf e)) fun r s' => s'.setAc ac r

/-- R163: two words from AC and the count from E, two results to AC (ASHC, ROTC, LSHC, GFSC). -/
def countPairGroup (core : Word × Word → Int → CoreOutcome (Word × Word)) (ac : AcNum) (a : AddrSpec) (s : State) : Out :=
  withE s a fun e => retire s (core (acPair s ac) (countOf e)) (storePair ac)

/-- R163: one word from E, one result to AC (FIX, FIXR, FLTR). -/
def unaryGroup (core : Word → CoreOutcome Word) (ac : AcNum) (a : AddrSpec) (s : State) : Out :=
  withE s a fun e => withWord s (loc e) fun b => retire s (core b) fun r s' => s'.setAc ac r

/-- R163: two words from E, one result to AC (GSNGL, GFIX, GFIXR). -/
def narrowGroup (core : Word × Word → CoreOutcome Word) (ac : AcNum) (a : AddrSpec) (s : State) : Out :=
  withE s a fun e => withPair s e fun b => retire s (core b) fun r s' => s'.setAc ac r

/-- R163: one word from E, two results to AC (GDBLE, GFLTR). -/
def widenGroup (core : Word → CoreOutcome (Word × Word)) (ac : AcNum) (a : AddrSpec) (s : State) : Out :=
  withE s a fun e => withWord s (loc e) fun b => retire s (core b) (storePair ac)

/-- R163: two words from E, two results to AC (DMOVN, DGFIX, DGFIXR, DGFLTR). -/
def pairFromMemGroup (core : Word × Word → CoreOutcome (Word × Word)) (ac : AcNum) (a : AddrSpec) (s : State) : Out :=
  withE s a fun e => withPair s e fun b => retire s (core b) (storePair ac)

/-- R156, R460: a G-format instruction, refused as not in the core when HAS_GFLOAT is false. -/
def ifGfloat (op : BitVec 9) (xop : Option (BitVec 9)) (s : State) (k : State → Out) : Out :=
  if s.cfg.hasGfloat then k s else .refused (.notInCore op xop)

end Sys2Proof.Machine
end

