-- ==== Sys2Proof/Machine/BytePointer.lean ====
section
/-! DEFINITION. Byte-pointer engine: canonical form, byte address, increment, write-back, and the six instructions LDB,
DPB, IBP, ILDB, IDPB, ADJBP (46_byte_pointer.md R500-R517). P and S are counts of bits, so natural numbers; an address is
held in its widest form. -/

namespace Sys2Proof.Machine

/-! ## Canonical form -/

/-- R504: the one-word-global codes, each with the P and S it stands for. -/
def owgRows : List (Nat × Nat × Nat) :=
  [(0o45, 36, 6), (0o46, 30, 6), (0o47, 24, 6), (0o50, 18, 6), (0o51, 12, 6), (0o52, 6, 6), (0o53, 0, 6)] ++
  [(0o54, 36, 8), (0o55, 28, 8), (0o56, 20, 8), (0o57, 12, 8), (0o60, 4, 8)] ++
  [(0o61, 36, 7), (0o62, 29, 7), (0o63, 22, 7), (0o64, 15, 7), (0o65, 8, 7), (0o66, 1, 7)] ++
  [(0o67, 36, 9), (0o70, 27, 9), (0o71, 18, 9), (0o72, 9, 9), (0o73, 0, 9)] ++
  [(0o74, 36, 18), (0o75, 18, 18), (0o76, 0, 18)]

/-- R504: OWG[code], the P and S of a code. Code 77 octal has none. -/
def owgDecode (code : Nat) : Option (Nat × Nat) := owgRows.lookup code

/-- R504: OWGcode(S, P), read backward. -/
def owgCode (s p : Nat) : Option Nat := (owgRows.find? fun r => r.2.1 == p && r.2.2 == s).map (·.1)

/-- R506: the canonical form of a byte pointer, for the length of one operation (R54). `y` is its address field. -/
structure Bp where
  form : BpForm
  p : Nat
  s : Nat
  i : Bool
  x : BitVec 4
  y : MemAddr
deriving DecidableEq, Repr

/-- R501: the P field. -/
def pField (w : Word) : Nat := (w.extractLsb' 30 6).toNat

/-- R501: the S field. -/
def sField (w : Word) : Nat := (w.extractLsb' 24 6).toNat

/-- R502, R506: the second word of a two-word pointer: an IFIW, an EFIW, or malformed. -/
def canonTwoWord (p s : Nat) (w1 : Word) : Bp :=
  if w1.getLsbD 35 then
    if w1.getLsbD 34 then ⟨.twBad, p, s, false, 0, 0⟩
    else ⟨.twl, p, s, w1.getLsbD 22, w1.extractLsb' 18 4, loc (w1.extractLsb' 0 18)⟩
  else ⟨.twg, p, s, w1.getLsbD 34, w1.extractLsb' 30 4, w1.extractLsb' 0 30⟩

/-- R505, R506: canonicalize. The second word is the outcome of reading E+1 and is used only where a two-word pointer is
decoded. -/
def canon (cfg : Params) (w0 : Word) (m1 : Except MemInfo Word) : Except MemInfo Bp :=
  let p := pField w0
  let s := sField w0
  if !cfg.extended || (decide (p ≤ 36) && !w0.getLsbD 23) then
    .ok ⟨.owl, p, s, w0.getLsbD 22, w0.extractLsb' 18 4, loc (w0.extractLsb' 0 18)⟩
  else if 36 < p then
    match owgDecode p with
    | some (p', s') => .ok ⟨.owg, p', s', false, 0, w0.extractLsb' 0 30⟩
    | none => .ok ⟨.owgBad, p, s, false, 0, 0⟩
  else m1.map (canonTwoWord p s)

/-- R507: BP_TRAP under a choice of it (log entry 5). -/
def bpTraps (c : BpTrapChoice) (bp : Bp) : Bool :=
  match bp.form with
  | .owgBad => true
  | .twBad => true
  | .owg => false
  | .owl => bp.s == 0 && c.owl.getLsbD bp.p
  | .twl => bp.s == 0 && c.twl.getLsbD bp.p
  | .twg => bp.s == 0 && c.twg.getLsbD bp.p

/-- R604: canonicalize, where a faulting second word gives MemFault; then test BP_TRAP; then go on. -/
def withPointer {α : Type} (cfg : Params) (w0 : Word) (m1 : Except MemInfo Word) (k : Bp → CoreOutcome α) :
    CoreOutcome α :=
  match canon cfg w0 m1 with
  | .error info => .memFault info
  | .ok bp => if bpTraps cfg.bpTrap bp then .bpTrap bp.form bp.p bp.s else k bp

/-! ## Byte address -/

/-- R508: `mem.resolve(Local, I, X, Y)`, which R711 says is `ea` of a word with those fields. -/
def resolveLocal (s : State) (i : Bool) (x : BitVec 4) (y : MemAddr) : Except AddrError MemAddr :=
  (effAddr s ⟨i, x, y.setWidth 18⟩).map loc

/-- R508: `mem.resolve(Global, I, X, Y)` with EXTENDED, for at most `fuel` indirect words: it adds the index register's
contents when X is not 0, modulo 2^30, and follows indirection when I is 1. PRESUMED (log entry 14): an indirect word read
on the way has the layouts of R502. -/
def globalLoop (s : State) (fuel : Nat) (i : Bool) (x : BitVec 4) (y : MemAddr) : Except AddrError MemAddr :=
  match fuel with
  | 0 => .error .cycle
  | fuel + 1 =>
    let a := if x = 0 then y else y + (s.ac x).setWidth 30
    if i then
      match s.readWord a with
      | none => .error (.fault (.unwritten a))
      | some w =>
        let next := canonTwoWord 0 0 w
        match next.form with
        | .twg => globalLoop s fuel next.i next.x next.y
        | .twl => resolveLocal s next.i next.x next.y
        | .twBad => .error (.fault (.malformedIndirect a))
        | .owl => .error (.fault (.malformedIndirect a))
        | .owg => .error (.fault (.malformedIndirect a))
        | .owgBad => .error (.fault (.malformedIndirect a))
    else .ok a

/-- R508: the global form of `mem.resolve`; each indirect word has a 30-bit address, so a loop that has read 2^30 + 1 of
them never ends (log entry 10). -/
def resolveGlobal (s : State) (i : Bool) (x : BitVec 4) (y : MemAddr) : Except AddrError MemAddr :=
  globalLoop s (2 ^ 30 + 2) i x y

/-- R508: the address of the word that holds the byte. -/
def byteAddr (s : State) (bp : Bp) : Except AddrError MemAddr :=
  match bp.form with
  | .owg => .ok bp.y
  | .twg => resolveGlobal s bp.i bp.x bp.y
  | .owl => resolveLocal s bp.i bp.x bp.y
  | .twl => resolveLocal s bp.i bp.x bp.y
  | .owgBad => .ok bp.y
  | .twBad => .ok bp.y

/-- R510, R517: resolve the byte's address and read its word; the first request to fail gives MemFault (R105). -/
def withByteWord {α : Type} (s : State) (bp : Bp) (k : MemAddr → Word → CoreOutcome α) : CoreOutcome α :=
  match byteAddr s bp with
  | .error (.fault info) => .memFault info
  | .error .cycle => .noAnswer
  | .ok a =>
    match s.readWord a with
    | none => .memFault (.unwritten a)
    | some w => k a w

/-- R105, R511, R604: the core's MemWrite of the byte's word, the last request of its operation; where it fails the operation
ends with MemFault and nothing is written. -/
def withByteWrite {α : Type} (s : State) (a : MemAddr) (o : CoreOutcome α) : CoreOutcome α :=
  if s.writeFails a then .memFault (.writeRefused a) else o

/-! ## Extract, deposit, increment, write back -/

/-- R510: the byte of a word; a byte past bit 35 is cut there. -/
def extractByte (w : Word) (p s : Nat) : Word := BitVec.ofNat 36 (w.toNat / 2 ^ p % 2 ^ s)

/-- R511: the bits of a word that a byte occupies. -/
def byteMask (p s : Nat) : Word := BitVec.ofNat 36 ((2 ^ s - 1) * 2 ^ p)

/-- R511: the word with a byte replaced by the low bits of `b`. -/
def depositByte (w b : Word) (p s : Nat) : Word :=
  (w &&& ~~~byteMask p s) ||| (BitVec.ofNat 36 (b.toNat * 2 ^ p) &&& byteMask p s)

/-- R512: the address field advanced by `q` words: in 18 bits for a local pointer, in 30 for a global one. -/
def advanceY (bp : Bp) (q : Int) : MemAddr :=
  match bp.form with
  | .owl => loc (bp.y.setWidth 18 + BitVec.ofInt 18 q)
  | .twl => loc (bp.y.setWidth 18 + BitVec.ofInt 18 q)
  | .owg => bp.y + BitVec.ofInt 30 q
  | .twg => bp.y + BitVec.ofInt 30 q
  | .owgBad => bp.y
  | .twBad => bp.y

/-- R512: the pointer to the next byte. -/
def incPointer (bp : Bp) : Bp :=
  if bp.s ≤ bp.p then { bp with p := bp.p - bp.s }
  else { bp with p := (100 - bp.s) % 64, y := advanceY bp 1 }

/-- R509: a pointer written back in its own form, with the position field `pf` in place of P: only that field and the
address field change. Its one or two words. -/
def encode2 (bp : Bp) (pf : BitVec 6) (w0 w1 : Word) : Word × Option Word :=
  match bp.form with
  | .owl => (pf ++ (w0.extractLsb' 18 12 ++ bp.y.extractLsb' 0 18 : BitVec 30), none)
  | .owg => (pf ++ bp.y, none)
  | .twl => (pf ++ w0.extractLsb' 0 30, some (w1.extractLsb' 18 18 ++ bp.y.extractLsb' 0 18 : BitVec (18 + 18)))
  | .twg => (pf ++ w0.extractLsb' 0 30, some (w1.extractLsb' 30 6 ++ bp.y : BitVec (6 + 30)))
  | .owgBad => (w0, none)
  | .twBad => (w0, none)

/-- R504, R509: the position field of a pointer: its code for a one-word global, else P. Every P a one-word global gets from
R512 or R515 has a code, so the other answer is never used. -/
def positionField (bp : Bp) : BitVec 6 :=
  match bp.form with
  | .owg => BitVec.ofNat 6 ((owgCode bp.s bp.p).getD 0)
  | .owl => BitVec.ofNat 6 bp.p
  | .twl => BitVec.ofNat 6 bp.p
  | .twg => BitVec.ofNat 6 bp.p
  | .owgBad => BitVec.ofNat 6 bp.p
  | .twBad => BitVec.ofNat 6 bp.p

/-- R509: enc; the second word matters only to a two-word pointer, which has one. -/
def encPointer (bp : Bp) (w0 : Word) (m1 : Except MemInfo Word) : Word × Option Word :=
  encode2 bp (positionField bp) w0 (m1.toOption.getD 0)

/-! ## The six operations of the core -/

/-- R500: the results of a byte operation: the core's own MemWrite, the words for E, E+1 and the words for AC, AC+1. -/
structure ByteResult where
  written : Option (MemAddr × Word)
  ptr     : Option (Word × Option Word)
  ac      : Option (Word × Option Word)
deriving DecidableEq, Repr

/-- R510: LDB. -/
def ldbCore (s : State) (w0 : Word) (m1 : Except MemInfo Word) : CoreOutcome ByteResult :=
  withPointer s.cfg w0 m1 fun bp => withByteWord s bp fun _ w =>
    .done ⟨none, none, some (extractByte w bp.p bp.s, none)⟩ .none

/-- R511: DPB. -/
def dpbCore (s : State) (b w0 : Word) (m1 : Except MemInfo Word) : CoreOutcome ByteResult :=
  withPointer s.cfg w0 m1 fun bp => withByteWord s bp fun a w =>
    withByteWrite s a (.done ⟨some (a, depositByte w b bp.p bp.s), none, none⟩ .none)

/-- R513: ILDB. -/
def ildbCore (s : State) (w0 : Word) (m1 : Except MemInfo Word) : CoreOutcome ByteResult :=
  withPointer s.cfg w0 m1 fun bp => withByteWord s (incPointer bp) fun _ w =>
    .done ⟨none, some (encPointer (incPointer bp) w0 m1), some (extractByte w (incPointer bp).p bp.s, none)⟩ .none

/-- R514: IDPB; where the write faults the pointer is not written back. -/
def idpbCore (s : State) (b w0 : Word) (m1 : Except MemInfo Word) : CoreOutcome ByteResult :=
  withPointer s.cfg w0 m1 fun bp => withByteWord s (incPointer bp) fun a w =>
    withByteWrite s a
      (.done ⟨some (a, depositByte w b (incPointer bp).p bp.s), some (encPointer (incPointer bp) w0 m1), none⟩ .none)

/-- R516: IBP. -/
def ibpCore (s : State) (w0 : Word) (m1 : Except MemInfo Word) : CoreOutcome ByteResult :=
  withPointer s.cfg w0 m1 fun bp => .done ⟨none, some (encPointer (incPointer bp) w0 m1), none⟩ .none

/-- R515: bytes to the left of the pointer, L. -/
def bytesLeft (bp : Bp) : Int := (36 - (bp.p : Int)) / bp.s

/-- R515: bytes per word, bpw = L + Rt. -/
def bytesPerWord (bp : Bp) : Int := bytesLeft bp + (bp.p / bp.s : Nat)

/-- R515: Q, the words to move by; `floor` of a quotient whose divisor may be negative. -/
def adjustQ (bp : Bp) (n : Int) : Int := Int.fdiv (n + bytesLeft bp - 1) (bytesPerWord bp)

/-- R515: P' = 36 - r * S - res, with r = n + L - Q * bpw and res the alignment residue. -/
def adjustP (bp : Bp) (n : Int) : Int :=
  36 - (n + bytesLeft bp - adjustQ bp n * bytesPerWord bp) * bp.s - (36 - (bp.p : Int)) % bp.s

/-- R515: the position field of an adjusted pointer. Where bpw is negative R515's P' is no P field: a free value (log
entry 12). -/
def adjustedField (bp : Bp) (n : Int) : BitVec 6 :=
  if bytesPerWord bp < 0 then Config.adjbpPosition bp.p bp.s n
  else positionField { bp with p := (adjustP bp n).toNat }

/-- R515: the words of an adjusted pointer. -/
def adjustPointer (bp : Bp) (n : Int) (w0 w1 : Word) : Word × Option Word :=
  encode2 { bp with y := advanceY bp (adjustQ bp n) } (adjustedField bp n) w0 w1

/-- R515: the words of a pointer left as it is. -/
def samePointer (bp : Bp) (w0 w1 : Word) : Word × Option Word :=
  match bp.form with
  | .owl => (w0, none)
  | .owg => (w0, none)
  | .twl => (w0, some w1)
  | .twg => (w0, some w1)
  | .owgBad => (w0, none)
  | .twBad => (w0, none)

/-- R515: ADJBP, by the byte count s36 of C(AC). -/
def adjbpCore (s : State) (count w0 : Word) (m1 : Except MemInfo Word) : CoreOutcome ByteResult :=
  withPointer s.cfg w0 m1 fun bp =>
    let w1 := m1.toOption.getD 0
    if bp.s = 0 then .done ⟨none, none, some (samePointer bp w0 w1)⟩ .none
    else if bytesPerWord bp = 0 then .noDivide .divf
    else .done ⟨none, none, some (adjustPointer bp (s36 count) w0 w1)⟩ .none

/-! ## Routing -/

/-- R505: the outcome of reading E+1. -/
def secondWord (s : State) (e : Half) : Except MemInfo Word :=
  match s.readWord (nextLoc s.cfg e) with
  | some w => .ok w
  | none => .error (.unwritten (nextLoc s.cfg e))

/-- R511, R713: what the core's own MemWrite stores, where it did not fail (`withByteWrite`). -/
def storeWritten (written : Option (MemAddr × Word)) (s : State) : State :=
  match written with
  | some (a, w) => s.writeWord a w
  | none => s

/-- R500: the words of a pointer to E, E+1. -/
def storePointer (e : Half) (ptr : Option (Word × Option Word)) (s : State) : State :=
  match ptr with
  | some (w0, some w1) => storeMemPair e (w0, w1) s
  | some (w0, none) => s.writeWord (loc e) w0
  | none => s

/-- R500: a byte, or the words of a pointer, to AC, AC+1. -/
def storeByteAc (ac : AcNum) (r : Option (Word × Option Word)) (s : State) : State :=
  match r with
  | some (w0, some w1) => storePair ac (w0, w1) s
  | some (w0, none) => s.setAc ac w0
  | none => s

/-- R500, R713: the core's own write, then the pointer to E, E+1, then the result to AC, AC+1. -/
def storeByte (ac : AcNum) (e : Half) (r : ByteResult) (s : State) : State :=
  storeByteAc ac r.ac (storePointer e r.ptr (storeWritten r.written s))

/-- R500, R712: M[0] = C(E), M[1] the outcome of reading E+1. -/
def byteGroup (core : State → Word → Except MemInfo Word → CoreOutcome ByteResult) (ac : AcNum) (a : AddrSpec)
    (s : State) : Out :=
  withE s a fun e => withWord s (loc e) fun w0 => retire s (core s w0 (secondWord s e)) (storeByte ac e)

/-- R510: LDB. -/
def execLdb (ac : AcNum) (a : AddrSpec) (s : State) : Out := byteGroup ldbCore ac a s

/-- R511: DPB, of the byte in C(AC). -/
def execDpb (ac : AcNum) (a : AddrSpec) (s : State) : Out := byteGroup (fun s => dpbCore s (s.ac ac)) ac a s

/-- R516: IBP; its AC field is 0 and no accumulator is read. -/
def execIbp (a : AddrSpec) (s : State) : Out := byteGroup ibpCore 0 a s

/-- R513: ILDB. -/
def execIldb (ac : AcNum) (a : AddrSpec) (s : State) : Out := byteGroup ildbCore ac a s

/-- R514: IDPB, of the byte in C(AC). -/
def execIdpb (ac : AcNum) (a : AddrSpec) (s : State) : Out := byteGroup (fun s => idpbCore s (s.ac ac)) ac a s

/-- R515: ADJBP, by the byte count in C(AC). -/
def execAdjbp (ac : AcNum) (a : AddrSpec) (s : State) : Out := byteGroup (fun s => adjbpCore s (s.ac ac)) ac a s

end Sys2Proof.Machine
end

