-- ==== Sys2Proof/Machine/FixedAddSub.lean ====
section
/-! DEFINITION. Fixed-point adder and subtractor: ADD, SUB, MOVN, MOVM, the increments and decrements, and the double-word
DADD, DSUB, DMOVN (40_fixed_addsub.md R200-R213). -/

namespace Sys2Proof.Machine

/-! ## Operations of the core -/

/-- R204: ADD. -/
def addCore (a b : Word) : CoreOutcome Word :=
  let t := addc 36 a b 0
  .done t.r (addFlags t.c0 t.c1)

/-- R205: SUB, `A + NOT B + 1`. -/
def subCore (a b : Word) : CoreOutcome Word :=
  let t := addc 36 a (~~~b) 1
  .done t.r (addFlags t.c0 t.c1)

/-- R206: MOVN. -/
def negCore (cfg : Params) (x : Word) : CoreOutcome Word :=
  .done (addc 36 0 (~~~x) 1).r
    (if x = 0 then .carries else if x = maxNeg then negMaxnegFlags cfg else .none)

/-- R207: MOVM. -/
def magCore (cfg : Params) (x : Word) : CoreOutcome Word :=
  if x.msb then .done (mod36 (-s36 x)) (if x = maxNeg then negMaxnegFlags cfg else .none) else .done x .none

/-- R208: INC. -/
def incCore (x : Word) : CoreOutcome Word :=
  let t := addc 36 x 1 0
  .done t.r (addFlags t.c0 t.c1)

/-- R209: DEC. -/
def decCore (x : Word) : CoreOutcome Word :=
  let t := addc 36 x (~~~1) 1
  .done t.r (addFlags t.c0 t.c1)

/-- R210: dval, the 71-bit signed integer of a fixed-point double word; the LO sign bit is no part of it. -/
def dval (d : Word × Word) : Int := s36 d.1 * 2 ^ 35 + (d.2.toNat % 2 ^ 35 : Nat)

/-- R210: dval as a 71-bit pattern. -/
def dval71 (d : Word × Word) : BitVec 71 := d.1 ++ d.2.extractLsb' 0 35

/-- R210: a 71-bit result as a double word, LO's sign a copy of HI's. -/
def split71 (t : BitVec 71) : Word × Word :=
  (t.extractLsb' 35 36, (t.extractLsb' 70 1 ++ t.extractLsb' 0 35 : BitVec (1 + 35)))

/-- R211: DADD. -/
def daddCore (a b : Word × Word) : CoreOutcome (Word × Word) :=
  let t := addc 71 (dval71 a) (dval71 b) 0
  .done (split71 t.r) (addFlags t.c0 t.c1)

/-- R212: DSUB. -/
def dsubCore (a b : Word × Word) : CoreOutcome (Word × Word) :=
  let t := addc 71 (dval71 a) (~~~dval71 b) 1
  .done (split71 t.r) (addFlags t.c0 t.c1)

/-- R213: DMOVN; LO's sign is 0, and the flags are the parameter DMOVN_FLAGS. -/
def dnegCore (cfg : Params) (x : Word × Word) : CoreOutcome (Word × Word) :=
  let t := addc 71 0 (~~~dval71 x) 1
  let flags :=
    match cfg.dmovnFlags with
    | .silent => Flags.none
    | .asNegate =>
      if dval71 x = 0 then .carries
      else if dval71 x = BitVec.ofNat 71 (2 ^ 70) then negMaxnegFlags cfg else .none
  .done (t.r.extractLsb' 35 36, (0#1 ++ t.r.extractLsb' 0 35 : BitVec (1 + 35))) flags

/-! ## ADD and SUB (R204, R205, R158) -/

/-- R204: ADD, C(AC), C(E) to AC. -/
def execAdd (ac : AcNum) (a : AddrSpec) (s : State) : Out := arithGroup .basic immWord addCore ac a s

/-- R204: ADDI, C(AC), `0,,E` to AC. -/
def execAddi (ac : AcNum) (a : AddrSpec) (s : State) : Out := arithGroup .immediate immWord addCore ac a s

/-- R204: ADDM, C(AC), C(E) to E. -/
def execAddm (ac : AcNum) (a : AddrSpec) (s : State) : Out := arithGroup .memory immWord addCore ac a s

/-- R204: ADDB, C(AC), C(E) to E and AC. -/
def execAddb (ac : AcNum) (a : AddrSpec) (s : State) : Out := arithGroup .both immWord addCore ac a s

/-- R205: SUB, C(AC), C(E) to AC. -/
def execSub (ac : AcNum) (a : AddrSpec) (s : State) : Out := arithGroup .basic immWord subCore ac a s

/-- R205: SUBI, C(AC), `0,,E` to AC. -/
def execSubi (ac : AcNum) (a : AddrSpec) (s : State) : Out := arithGroup .immediate immWord subCore ac a s

/-- R205: SUBM, C(AC), C(E) to E. -/
def execSubm (ac : AcNum) (a : AddrSpec) (s : State) : Out := arithGroup .memory immWord subCore ac a s

/-- R205: SUBB, C(AC), C(E) to E and AC. -/
def execSubb (ac : AcNum) (a : AddrSpec) (s : State) : Out := arithGroup .both immWord subCore ac a s

/-! ## MOVN and MOVM (R206, R207, R161) -/

/-- R206: MOVN, C(E) to AC. -/
def execMovn (ac : AcNum) (a : AddrSpec) (s : State) : Out := moveGroup .basic (negCore s.cfg) ac a s

/-- R206: MOVNI, `0,,E` to AC. -/
def execMovni (ac : AcNum) (a : AddrSpec) (s : State) : Out := moveGroup .immediate (negCore s.cfg) ac a s

/-- R206: MOVNM, C(AC) to E. -/
def execMovnm (ac : AcNum) (a : AddrSpec) (s : State) : Out := moveGroup .memory (negCore s.cfg) ac a s

/-- R206: MOVNS, C(E) to E, and to AC when the AC field is not 0. -/
def execMovns (ac : AcNum) (a : AddrSpec) (s : State) : Out := moveGroup .self (negCore s.cfg) ac a s

/-- R207: MOVM, C(E) to AC. -/
def execMovm (ac : AcNum) (a : AddrSpec) (s : State) : Out := moveGroup .basic (magCore s.cfg) ac a s

/-- R161: MOVMI stores `0,,E` to AC unchanged with no flags. -/
def execMovmi (ac : AcNum) (a : AddrSpec) (s : State) : Out :=
  withE s a fun e => retire s (.done (immWord e) .none) fun r s' => s'.setAc ac r

/-- R207: MOVMM, C(AC) to E. -/
def execMovmm (ac : AcNum) (a : AddrSpec) (s : State) : Out := moveGroup .memory (magCore s.cfg) ac a s

/-- R207: MOVMS, C(E) to E, and to AC when the AC field is not 0. -/
def execMovms (ac : AcNum) (a : AddrSpec) (s : State) : Out := moveGroup .self (magCore s.cfg) ac a s

/-! ## Increments and decrements (R208, R209, R162, R714) -/

/-- R208: AOJ, jump never. -/
def execAoj (ac : AcNum) (a : AddrSpec) (s : State) : Out := jumpGroup .never incCore ac a s

/-- R208: AOJL, jump if v < 0. -/
def execAojl (ac : AcNum) (a : AddrSpec) (s : State) : Out := jumpGroup .lt incCore ac a s

/-- R208: AOJE, jump if v = 0. -/
def execAoje (ac : AcNum) (a : AddrSpec) (s : State) : Out := jumpGroup .eq incCore ac a s

/-- R208: AOJLE, jump if v <= 0. -/
def execAojle (ac : AcNum) (a : AddrSpec) (s : State) : Out := jumpGroup .le incCore ac a s

/-- R208: AOJA, jump always. -/
def execAoja (ac : AcNum) (a : AddrSpec) (s : State) : Out := jumpGroup .always incCore ac a s

/-- R208: AOJGE, jump if v >= 0. -/
def execAojge (ac : AcNum) (a : AddrSpec) (s : State) : Out := jumpGroup .ge incCore ac a s

/-- R208: AOJN, jump if v != 0. -/
def execAojn (ac : AcNum) (a : AddrSpec) (s : State) : Out := jumpGroup .ne incCore ac a s

/-- R208: AOJG, jump if v > 0. -/
def execAojg (ac : AcNum) (a : AddrSpec) (s : State) : Out := jumpGroup .gt incCore ac a s

/-- R208: AOS, skip never. -/
def execAos (ac : AcNum) (a : AddrSpec) (s : State) : Out := skipGroup .never incCore ac a s

/-- R208: AOSL, skip if v < 0. -/
def execAosl (ac : AcNum) (a : AddrSpec) (s : State) : Out := skipGroup .lt incCore ac a s

/-- R208: AOSE, skip if v = 0. -/
def execAose (ac : AcNum) (a : AddrSpec) (s : State) : Out := skipGroup .eq incCore ac a s

/-- R208: AOSLE, skip if v <= 0. -/
def execAosle (ac : AcNum) (a : AddrSpec) (s : State) : Out := skipGroup .le incCore ac a s

/-- R208: AOSA, skip always. -/
def execAosa (ac : AcNum) (a : AddrSpec) (s : State) : Out := skipGroup .always incCore ac a s

/-- R208: AOSGE, skip if v >= 0. -/
def execAosge (ac : AcNum) (a : AddrSpec) (s : State) : Out := skipGroup .ge incCore ac a s

/-- R208: AOSN, skip if v != 0. -/
def execAosn (ac : AcNum) (a : AddrSpec) (s : State) : Out := skipGroup .ne incCore ac a s

/-- R208: AOSG, skip if v > 0. -/
def execAosg (ac : AcNum) (a : AddrSpec) (s : State) : Out := skipGroup .gt incCore ac a s

/-- R209: SOJ, jump never. -/
def execSoj (ac : AcNum) (a : AddrSpec) (s : State) : Out := jumpGroup .never decCore ac a s

/-- R209: SOJL, jump if v < 0. -/
def execSojl (ac : AcNum) (a : AddrSpec) (s : State) : Out := jumpGroup .lt decCore ac a s

/-- R209: SOJE, jump if v = 0. -/
def execSoje (ac : AcNum) (a : AddrSpec) (s : State) : Out := jumpGroup .eq decCore ac a s

/-- R209: SOJLE, jump if v <= 0. -/
def execSojle (ac : AcNum) (a : AddrSpec) (s : State) : Out := jumpGroup .le decCore ac a s

/-- R209: SOJA, jump always. -/
def execSoja (ac : AcNum) (a : AddrSpec) (s : State) : Out := jumpGroup .always decCore ac a s

/-- R209: SOJGE, jump if v >= 0. -/
def execSojge (ac : AcNum) (a : AddrSpec) (s : State) : Out := jumpGroup .ge decCore ac a s

/-- R209: SOJN, jump if v != 0. -/
def execSojn (ac : AcNum) (a : AddrSpec) (s : State) : Out := jumpGroup .ne decCore ac a s

/-- R209: SOJG, jump if v > 0. -/
def execSojg (ac : AcNum) (a : AddrSpec) (s : State) : Out := jumpGroup .gt decCore ac a s

/-- R209: SOS, skip never. -/
def execSos (ac : AcNum) (a : AddrSpec) (s : State) : Out := skipGroup .never decCore ac a s

/-- R209: SOSL, skip if v < 0. -/
def execSosl (ac : AcNum) (a : AddrSpec) (s : State) : Out := skipGroup .lt decCore ac a s

/-- R209: SOSE, skip if v = 0. -/
def execSose (ac : AcNum) (a : AddrSpec) (s : State) : Out := skipGroup .eq decCore ac a s

/-- R209: SOSLE, skip if v <= 0. -/
def execSosle (ac : AcNum) (a : AddrSpec) (s : State) : Out := skipGroup .le decCore ac a s

/-- R209: SOSA, skip always. -/
def execSosa (ac : AcNum) (a : AddrSpec) (s : State) : Out := skipGroup .always decCore ac a s

/-- R209: SOSGE, skip if v >= 0. -/
def execSosge (ac : AcNum) (a : AddrSpec) (s : State) : Out := skipGroup .ge decCore ac a s

/-- R209: SOSN, skip if v != 0. -/
def execSosn (ac : AcNum) (a : AddrSpec) (s : State) : Out := skipGroup .ne decCore ac a s

/-- R209: SOSG, skip if v > 0. -/
def execSosg (ac : AcNum) (a : AddrSpec) (s : State) : Out := skipGroup .gt decCore ac a s

/-! ## Double words (R211-R213, R163) -/

/-- R211: DADD. -/
def execDadd (ac : AcNum) (a : AddrSpec) (s : State) : Out := doubleGroup daddCore ac a s

/-- R212: DSUB. -/
def execDsub (ac : AcNum) (a : AddrSpec) (s : State) : Out := doubleGroup dsubCore ac a s

/-- R213: DMOVN, from E, E+1 to AC, AC+1. -/
def execDmovn (ac : AcNum) (a : AddrSpec) (s : State) : Out := pairFromMemGroup (dnegCore s.cfg) ac a s

/-- R213: DMOVNM, from AC, AC+1 to E, E+1. -/
def execDmovnm (ac : AcNum) (a : AddrSpec) (s : State) : Out :=
  withE s a fun e => retire s (dnegCore s.cfg (acPair s ac)) (storeMemPair e)

end Sys2Proof.Machine
end

