-- ==== Sys2Proof/Machine/FixedMulDiv.lean ====
section
/-! DEFINITION. Fixed-point multiplier and divider: IMUL, MUL, DMUL, IDIV, DIV, DDIV (41_fixed_muldiv.md R250-R258).
Products and quotients are exact integers, narrowed at the end (R250, R251). -/

namespace Sys2Proof.Machine

/-! ## Operations of the core -/

/-- R253: IMUL; on overflow the sign of the 71-bit product and its low 35 bits are stored. -/
def imulCore (a b : Word) : CoreOutcome Word :=
  let p := s36 a * s36 b
  let t := BitVec.ofInt 71 p
  .done (t.extractLsb' 70 1 ++ t.extractLsb' 0 35 : BitVec (1 + 35))
    (.when (decide (p < -2 ^ 35) || decide (2 ^ 35 ≤ p)) .ovf)

/-- R254: MUL. -/
def mulCore (a b : Word) : CoreOutcome (Word × Word) :=
  let p := s36 a * s36 b
  .done (split71 (BitVec.ofInt 71 p)) (.when (decide (p = 2 ^ 70)) .ovf)

/-- R255: a 141-bit result as a quad word: one sign, 140 magnitude bits, the sign copied into the three low words. -/
def split141 (t : BitVec 141) : (Word × Word) × (Word × Word) :=
  let sign := t.extractLsb' 140 1
  ((t.extractLsb' 105 36, (sign ++ t.extractLsb' 70 35 : BitVec (1 + 35))),
   ((sign ++ t.extractLsb' 35 35 : BitVec (1 + 35)), (sign ++ t.extractLsb' 0 35 : BitVec (1 + 35))))

/-- R255: DMUL. -/
def dmulCore (a b : Word × Word) : CoreOutcome ((Word × Word) × (Word × Word)) :=
  let p := dval a * dval b
  .done (split141 (BitVec.ofInt 141 p)) (.when (decide (p = 2 ^ 140)) .ovf)

/-- R252, R257, R258: the no-divide test of a dividend whose low part is `k` bits wide. -/
def divideFails (n d : Int) (k : Nat) : Bool := decide (d = 0) || decide (|d| * 2 ^ k ≤ |n|)

/-- R256: IDIV; quotient truncated toward zero, remainder with the sign of the dividend (R251). -/
def idivCore (cfg : Params) (a b : Word) : CoreOutcome (Word × Word) :=
  let n := s36 a
  let d := s36 b
  if d = 0 then .noDivide .divf
  else if n = -2 ^ 35 ∧ (d = 1 ∨ d = -1) then
    match cfg.idivMaxneg with
    | .strict => .noDivide .divf
    | .permit => .done (mod36 (Int.tdiv n d), 0) .none
  else .done (mod36 (Int.tdiv n d), mod36 (n - Int.tdiv n d * d)) .none

/-- R257: DIV. -/
def divCore (a : Word × Word) (b : Word) : CoreOutcome (Word × Word) :=
  let n := dval a
  let d := s36 b
  if divideFails n d 35 then .noDivide .divf
  else .done (mod36 (Int.tdiv n d), mod36 (n - Int.tdiv n d * d)) .none

/-- R258: the 141-bit signed integer of a quad dividend; the sign bits of its three low words are no part of it. -/
def qval (q : (Word × Word) × (Word × Word)) : Int :=
  s36 q.1.1 * 2 ^ 105 + (q.1.2.toNat % 2 ^ 35 : Nat) * 2 ^ 70 + (q.2.1.toNat % 2 ^ 35 : Nat) * 2 ^ 35 +
    (q.2.2.toNat % 2 ^ 35 : Nat)

/-- R258: DDIV. -/
def ddivCore (a : (Word × Word) × (Word × Word)) (b : Word × Word) : CoreOutcome ((Word × Word) × (Word × Word)) :=
  let n := qval a
  let d := dval b
  if divideFails n d 70 then .noDivide .divf
  else .done (split71 (BitVec.ofInt 71 (Int.tdiv n d)), split71 (BitVec.ofInt 71 (n - Int.tdiv n d * d))) .none

/-! ## IMUL, MUL, IDIV and DIV (R160) -/

/-- R253: IMUL, C(AC), C(E) to AC. -/
def execImul (ac : AcNum) (a : AddrSpec) (s : State) : Out := arithGroup .basic immWord imulCore ac a s

/-- R253: IMULI, C(AC), `0,,E` to AC. -/
def execImuli (ac : AcNum) (a : AddrSpec) (s : State) : Out := arithGroup .immediate immWord imulCore ac a s

/-- R253: IMULM, C(AC), C(E) to E. -/
def execImulm (ac : AcNum) (a : AddrSpec) (s : State) : Out := arithGroup .memory immWord imulCore ac a s

/-- R253: IMULB, C(AC), C(E) to E and AC. -/
def execImulb (ac : AcNum) (a : AddrSpec) (s : State) : Out := arithGroup .both immWord imulCore ac a s

/-- R254: MUL, C(AC), C(E) to AC. -/
def execMul (ac : AcNum) (a : AddrSpec) (s : State) : Out := pairGroup .basic mulCore ac a s

/-- R254: MULI, C(AC), `0,,E` to AC. -/
def execMuli (ac : AcNum) (a : AddrSpec) (s : State) : Out := pairGroup .immediate mulCore ac a s

/-- R254: MULM, C(AC), C(E) to E. -/
def execMulm (ac : AcNum) (a : AddrSpec) (s : State) : Out := pairGroup .memory mulCore ac a s

/-- R254: MULB, C(AC), C(E) to E and AC. -/
def execMulb (ac : AcNum) (a : AddrSpec) (s : State) : Out := pairGroup .both mulCore ac a s

/-- R256: IDIV, C(AC), C(E) to AC. -/
def execIdiv (ac : AcNum) (a : AddrSpec) (s : State) : Out := pairGroup .basic (idivCore s.cfg) ac a s

/-- R256: IDIVI, C(AC), `0,,E` to AC. -/
def execIdivi (ac : AcNum) (a : AddrSpec) (s : State) : Out := pairGroup .immediate (idivCore s.cfg) ac a s

/-- R256: IDIVM, C(AC), C(E) to E. -/
def execIdivm (ac : AcNum) (a : AddrSpec) (s : State) : Out := pairGroup .memory (idivCore s.cfg) ac a s

/-- R256: IDIVB, C(AC), C(E) to E and AC. -/
def execIdivb (ac : AcNum) (a : AddrSpec) (s : State) : Out := pairGroup .both (idivCore s.cfg) ac a s

/-- R257: DIV, C(AC), C(E) to AC. -/
def execDiv (ac : AcNum) (a : AddrSpec) (s : State) : Out := divGroup .basic divCore ac a s

/-- R257: DIVI, C(AC), `0,,E` to AC. -/
def execDivi (ac : AcNum) (a : AddrSpec) (s : State) : Out := divGroup .immediate divCore ac a s

/-- R257: DIVM, C(AC), C(E) to E. -/
def execDivm (ac : AcNum) (a : AddrSpec) (s : State) : Out := divGroup .memory divCore ac a s

/-- R257: DIVB, C(AC), C(E) to E and AC. -/
def execDivb (ac : AcNum) (a : AddrSpec) (s : State) : Out := divGroup .both divCore ac a s

/-! ## Quad words (R163) -/

/-- R255: DMUL. -/
def execDmul (ac : AcNum) (a : AddrSpec) (s : State) : Out :=
  withE s a fun e => withPair s e fun b => retire s (dmulCore (acPair s ac) b) (storeQuad ac)

/-- R258: DDIV. -/
def execDdiv (ac : AcNum) (a : AddrSpec) (s : State) : Out :=
  withE s a fun e => withPair s e fun b => retire s (ddivCore (acQuad s ac) b) (storeQuad ac)

end Sys2Proof.Machine
end

