-- ==== Sys2Proof/Machine/Exact.lean ====
section
/-! DEFINITION. The exact rationals floating rules compute with (00_scope.md R18): a fraction of integers times a power
of two, so that every sum, product, quotient and scaling of floating values is exact and its floor is computed on integers. -/

namespace Sys2Proof.Machine

/-- R18: the rational `num / den * 2^exp`. `den` is positive in every value the rules build. -/
structure Exact where
  num : Int
  den : Nat
  exp : Int
deriving DecidableEq, Repr

/-- An integer as a rational. -/
def Exact.ofInt (n : Int) : Exact := ⟨n, 1, 0⟩

/-- Sum. -/
def Exact.add (x y : Exact) : Exact :=
  let e := min x.exp y.exp
  ⟨x.num * y.den * 2 ^ (x.exp - e).toNat + y.num * x.den * 2 ^ (y.exp - e).toNat, x.den * y.den, e⟩

/-- Opposite. -/
def Exact.neg (x : Exact) : Exact := ⟨-x.num, x.den, x.exp⟩

/-- Difference. -/
def Exact.sub (x y : Exact) : Exact := x.add y.neg

/-- Product. -/
def Exact.mul (x y : Exact) : Exact := ⟨x.num * y.num, x.den * y.den, x.exp + y.exp⟩

/-- Quotient by a nonzero rational. -/
def Exact.div (x y : Exact) : Exact :=
  ⟨x.num * y.den * y.num.sign, x.den * y.num.natAbs, x.exp - y.exp⟩

/-- Multiplication by 2^c. -/
def Exact.scale (x : Exact) (c : Int) : Exact := ⟨x.num, x.den, x.exp + c⟩

/-- floor (x * 2^j). -/
def Exact.floorScaled (x : Exact) (j : Int) : Int :=
  let k := x.exp + j
  if 0 ≤ k then x.num * 2 ^ k.toNat / x.den else x.num / (x.den * 2 ^ (-k).toNat)

/-- floor (x * 2^j + 1/2). -/
def Exact.roundScaled (x : Exact) (j : Int) : Int := (x.floorScaled (j + 1) + 1) / 2

/-- x truncated toward zero. -/
def Exact.trunc (x : Exact) : Int := if 0 ≤ x.num then x.floorScaled 0 else -x.neg.floorScaled 0

/-- floor (x + 1/2). -/
def Exact.roundHalfUp (x : Exact) : Int := x.roundScaled 0

/-- Whether n / d reaches 2^l, on integers. -/
def reaches (n d : Nat) (l : Int) : Bool :=
  if 0 ≤ l then decide (d * 2 ^ l.toNat ≤ n) else decide (d ≤ n * 2 ^ (-l).toNat)

/-- The difference of the integer logarithms of numerator and denominator. -/
def Exact.logGap (x : Exact) : Int := (Nat.log2 x.num.natAbs : Int) - Nat.log2 x.den

/-- The integer L with 2^L <= |x| < 2^(L+1), for x != 0. -/
def Exact.log2 (x : Exact) : Int :=
  (if reaches x.num.natAbs x.den x.logGap then x.logGap else x.logGap - 1) + x.exp

end Sys2Proof.Machine
end

