-- ==== Sys2Proof/Machine/FloatFormat.lean ====
section
/-! DEFINITION. Floating formats, unpack and pack, the shared normalizer and rounder, and the exponent-range flags
(43_normalize_round.md R350-R369). -/

namespace Sys2Proof.Machine

/-- R350: the three formats. -/
inductive Fmt where
  | f | d | g
deriving DecidableEq, Repr

/-- R350: the width of the exponent field. -/
def Fmt.ew (φ : Fmt) : Nat := match φ with | .f => 8 | .d => 8 | .g => 11

/-- R350: the exponent bias. -/
def Fmt.bias (φ : Fmt) : Nat := match φ with | .f => 128 | .d => 128 | .g => 1024

/-- R350: N, the fraction width. -/
def Fmt.n (φ : Fmt) : Nat := match φ with | .f => 27 | .d => 62 | .g => 59

/-- R350: Emax, the largest exponent field. -/
def Fmt.emax (φ : Fmt) : Nat := match φ with | .f => 255 | .d => 255 | .g => 2047

/-- R355: k, the fraction bits of word 0. -/
def Fmt.k (φ : Fmt) : Nat := match φ with | .f => 27 | .d => 27 | .g => 24

/-- R355: the fraction bits of word 1. Its bit 35 is no part of the fraction (R354). -/
def Fmt.k1 (φ : Fmt) : Nat := match φ with | .f => 0 | .d => 35 | .g => 35

/-- R355: unpack; the exponent (ones-complemented under a negative sign) and the two's-complement fraction. Word 1 of an F
operand is not looked at. -/
def unpack (φ : Fmt) (w : Word × Word) : Int × Int :=
  let ef : Nat := w.1.toNat / 2 ^ φ.k % 2 ^ φ.ew
  let fr : Nat := w.1.toNat % 2 ^ φ.k * 2 ^ φ.k1 + w.2.toNat % 2 ^ φ.k1
  if w.1.msb then (2 ^ φ.ew - 1 - ef, fr - 2 ^ φ.n) else (ef, fr)

/-- R356: val, the exact rational an operand denotes. -/
def val (φ : Fmt) (w : Word × Word) : Exact := ⟨(unpack φ w).2, 1, (unpack φ w).1 - φ.bias - φ.n⟩

/-- R356: val of an F word. -/
def valF (w : Word) : Exact := val .f (w, 0)

/-- R360: norm, the exponent field E for which `x * 2^(N + bias - E)` has magnitude in [2^(N-1), 2^N). -/
def normExponent (φ : Fmt) (x : Exact) : Int := x.log2 + φ.bias + 1

/-- R361, R362: the renormalizations after the fraction has been truncated or rounded. -/
def renormalize (φ : Fmt) (e f : Int) : Int × Int :=
  if f = 2 ^ φ.n then (e + 1, 2 ^ (φ.n - 1))
  else if f = -2 ^ φ.n then (e + 1, -2 ^ (φ.n - 1))
  else (e, f)

/-- R361, R362: the exponent and fraction of a nonzero result, rounded or truncated. -/
def roundTo (φ : Fmt) (x : Exact) (rnd : Bool) : Int × Int :=
  let e := normExponent φ x
  let j := (φ.n : Int) + φ.bias - e
  renormalize φ e (if rnd then x.roundScaled j else x.floorScaled j)

/-- R365: pack; the exponent field wraps, and word 1 bit 35 is 0 (R354). Word 1 of an F result is 0. -/
def pack (φ : Fmt) (e f : Int) : Word × Word :=
  let fr : Nat := (f % 2 ^ φ.n).toNat
  let ef : Nat := (e % 2 ^ φ.ew).toNat
  let w0 : Nat :=
    if f < 0 then 2 ^ 35 + (2 ^ φ.ew - 1 - ef) * 2 ^ φ.k + fr / 2 ^ φ.k1 else ef * 2 ^ φ.k + fr / 2 ^ φ.k1
  (BitVec.ofNat 36 w0, BitVec.ofNat 36 (fr % 2 ^ φ.k1))

/-- R364, R366, R367: FRES, the result words and the flags of an exact result. -/
def fres (φ : Fmt) (x : Exact) (rnd : Bool) : (Word × Word) × Flags :=
  if x.num = 0 then ((0, 0), .none)
  else (pack φ (roundTo φ x rnd).1 (roundTo φ x rnd).2, rangeFlags φ.emax (roundTo φ x rnd).1)

/-- R367: the outcome of an F operation whose exact result is x. -/
def resF (x : Exact) (rnd : Bool) : CoreOutcome Word := .done (fres .f x rnd).1.1 (fres .f x rnd).2

/-- R367: the outcome of a D or G operation whose exact result is x. -/
def resPair (φ : Fmt) (x : Exact) (rnd : Bool) : CoreOutcome (Word × Word) := .done (fres φ x rnd).1 (fres φ x rnd).2

/-- R408, R450: the no-divide test of the floating divides, on the fractions. -/
def floatDivideFails (φ : Fmt) (a b : Word × Word) : Bool :=
  decide ((unpack φ b).2 = 0) || decide (2 * |(unpack φ b).2| ≤ |(unpack φ a).2|)

/-- R368: an outcome that a quirk function gives whole. -/
def quirk {α : Type} (o : α × Flags) : CoreOutcome α := .done o.1 o.2

end Sys2Proof.Machine
end

