-- ==== Sys2Proof/Machine/FloatSingle.lean ====
section
/-! DEFINITION. Single-precision floating instructions: FAD, FADR, FSB, FSBR, FMP, FMPR, FDV, FDVR, UFA, FIX, FIXR,
FLTR, FSC (44_float_single.md R400-R416). -/

namespace Sys2Proof.Machine

/-! ## Operations of the core -/

/-- R401, R402: FAD (rnd = false), FADR (rnd = true). -/
def fadCore (rnd : Bool) (a b : Word) : CoreOutcome Word := resF ((valF a).add (valF b)) rnd

/-- R403, R404: FSB, FSBR. -/
def fsbCore (rnd : Bool) (a b : Word) : CoreOutcome Word := resF ((valF a).sub (valF b)) rnd

/-- R406: FMP; every negative product is in its quirk band under FIDELITY = Hardware. -/
def fmpCore (cfg : Params) (a b : Word) : CoreOutcome Word :=
  let x := (valF a).mul (valF b)
  if cfg.fidelity = .hardware ∧ x.num < 0 then quirk (Config.qFmp cfg.cpuModel a b) else resF x false

/-- R407: FMPR. -/
def fmprCore (a b : Word) : CoreOutcome Word := resF ((valF a).mul (valF b)) true

/-- R408-R410: FDV (rnd = false), FDVR (rnd = true); every negative quotient is in their quirk band. -/
def fdvCore (cfg : Params) (rnd : Bool) (a b : Word) : CoreOutcome Word :=
  if floatDivideFails .f (a, 0) (b, 0) then .noDivide .fdivf
  else
    let x := (valF a).div (valF b)
    if cfg.fidelity = .hardware ∧ x.num < 0 then quirk (Config.qFdv cfg.cpuModel a b rnd) else resF x rnd

/-- R411: UFA; the sum aligned to the larger exponent and truncated, one right shift on fraction overflow. -/
def ufaCore (a b : Word) : CoreOutcome Word :=
  let e := max (unpack .f (a, 0)).1 (unpack .f (b, 0)).1
  let sum := ((valF a).add (valF b)).floorScaled (155 - e)
  let carried : Bool := decide (2 ^ 27 ≤ sum) || decide (sum < -2 ^ 27)
  let sum' := if carried then sum / 2 else sum
  let e' := if carried then e + 1 else e
  if sum' = 0 then .done 0 .none else .done (pack .f e' sum').1 (.when (decide (255 < e')) .fovf)

/-- R412, R413: FIX. -/
def fixCore (b : Word) : CoreOutcome Word :=
  if 0o243 < (unpack .f (b, 0)).1 then .noStore .ovf else .done (mod36 (valF b).trunc) .none

/-- R412, R414: FIXR. -/
def fixrCore (b : Word) : CoreOutcome Word :=
  if 0o243 < (unpack .f (b, 0)).1 then .noStore .ovf else .done (mod36 (valF b).roundHalfUp) .none

/-- R415: FLTR. -/
def fltrCore (b : Word) : CoreOutcome Word := resF (.ofInt (s36 b)) true

/-- R416: FSC. -/
def fscCore (a : Word) (c : Int) : CoreOutcome Word := resF ((valF a).scale c) false

/-! ## Arithmetic in the modes of R159 -/

/-- R401: FAD, C(AC), C(E) to AC. -/
def execFad (ac : AcNum) (a : AddrSpec) (s : State) : Out := arithGroup .basic immFloat (fadCore false) ac a s

/-- R401: FADM, C(AC), C(E) to E. -/
def execFadm (ac : AcNum) (a : AddrSpec) (s : State) : Out := arithGroup .memory immFloat (fadCore false) ac a s

/-- R401: FADB, C(AC), C(E) to E and AC. -/
def execFadb (ac : AcNum) (a : AddrSpec) (s : State) : Out := arithGroup .both immFloat (fadCore false) ac a s

/-- R402: FADR, C(AC), C(E) to AC. -/
def execFadr (ac : AcNum) (a : AddrSpec) (s : State) : Out := arithGroup .basic immFloat (fadCore true) ac a s

/-- R402: FADRI, C(AC), `E,,0` to AC. -/
def execFadri (ac : AcNum) (a : AddrSpec) (s : State) : Out := arithGroup .immediate immFloat (fadCore true) ac a s

/-- R402: FADRM, C(AC), C(E) to E. -/
def execFadrm (ac : AcNum) (a : AddrSpec) (s : State) : Out := arithGroup .memory immFloat (fadCore true) ac a s

/-- R402: FADRB, C(AC), C(E) to E and AC. -/
def execFadrb (ac : AcNum) (a : AddrSpec) (s : State) : Out := arithGroup .both immFloat (fadCore true) ac a s

/-- R403: FSB, C(AC), C(E) to AC. -/
def execFsb (ac : AcNum) (a : AddrSpec) (s : State) : Out := arithGroup .basic immFloat (fsbCore false) ac a s

/-- R403: FSBM, C(AC), C(E) to E. -/
def execFsbm (ac : AcNum) (a : AddrSpec) (s : State) : Out := arithGroup .memory immFloat (fsbCore false) ac a s

/-- R403: FSBB, C(AC), C(E) to E and AC. -/
def execFsbb (ac : AcNum) (a : AddrSpec) (s : State) : Out := arithGroup .both immFloat (fsbCore false) ac a s

/-- R404: FSBR, C(AC), C(E) to AC. -/
def execFsbr (ac : AcNum) (a : AddrSpec) (s : State) : Out := arithGroup .basic immFloat (fsbCore true) ac a s

/-- R404: FSBRI, C(AC), `E,,0` to AC. -/
def execFsbri (ac : AcNum) (a : AddrSpec) (s : State) : Out := arithGroup .immediate immFloat (fsbCore true) ac a s

/-- R404: FSBRM, C(AC), C(E) to E. -/
def execFsbrm (ac : AcNum) (a : AddrSpec) (s : State) : Out := arithGroup .memory immFloat (fsbCore true) ac a s

/-- R404: FSBRB, C(AC), C(E) to E and AC. -/
def execFsbrb (ac : AcNum) (a : AddrSpec) (s : State) : Out := arithGroup .both immFloat (fsbCore true) ac a s

/-- R406: FMP, C(AC), C(E) to AC. -/
def execFmp (ac : AcNum) (a : AddrSpec) (s : State) : Out := arithGroup .basic immFloat (fmpCore s.cfg) ac a s

/-- R406: FMPM, C(AC), C(E) to E. -/
def execFmpm (ac : AcNum) (a : AddrSpec) (s : State) : Out := arithGroup .memory immFloat (fmpCore s.cfg) ac a s

/-- R406: FMPB, C(AC), C(E) to E and AC. -/
def execFmpb (ac : AcNum) (a : AddrSpec) (s : State) : Out := arithGroup .both immFloat (fmpCore s.cfg) ac a s

/-- R407: FMPR, C(AC), C(E) to AC. -/
def execFmpr (ac : AcNum) (a : AddrSpec) (s : State) : Out := arithGroup .basic immFloat fmprCore ac a s

/-- R407: FMPRI, C(AC), `E,,0` to AC. -/
def execFmpri (ac : AcNum) (a : AddrSpec) (s : State) : Out := arithGroup .immediate immFloat fmprCore ac a s

/-- R407: FMPRM, C(AC), C(E) to E. -/
def execFmprm (ac : AcNum) (a : AddrSpec) (s : State) : Out := arithGroup .memory immFloat fmprCore ac a s

/-- R407: FMPRB, C(AC), C(E) to E and AC. -/
def execFmprb (ac : AcNum) (a : AddrSpec) (s : State) : Out := arithGroup .both immFloat fmprCore ac a s

/-- R409: FDV, C(AC), C(E) to AC. -/
def execFdv (ac : AcNum) (a : AddrSpec) (s : State) : Out := arithGroup .basic immFloat (fdvCore s.cfg false) ac a s

/-- R409: FDVM, C(AC), C(E) to E. -/
def execFdvm (ac : AcNum) (a : AddrSpec) (s : State) : Out := arithGroup .memory immFloat (fdvCore s.cfg false) ac a s

/-- R409: FDVB, C(AC), C(E) to E and AC. -/
def execFdvb (ac : AcNum) (a : AddrSpec) (s : State) : Out := arithGroup .both immFloat (fdvCore s.cfg false) ac a s

/-- R410: FDVR, C(AC), C(E) to AC. -/
def execFdvr (ac : AcNum) (a : AddrSpec) (s : State) : Out := arithGroup .basic immFloat (fdvCore s.cfg true) ac a s

/-- R410: FDVRI, C(AC), `E,,0` to AC. -/
def execFdvri (ac : AcNum) (a : AddrSpec) (s : State) : Out :=
  arithGroup .immediate immFloat (fdvCore s.cfg true) ac a s

/-- R410: FDVRM, C(AC), C(E) to E. -/
def execFdvrm (ac : AcNum) (a : AddrSpec) (s : State) : Out := arithGroup .memory immFloat (fdvCore s.cfg true) ac a s

/-- R410: FDVRB, C(AC), C(E) to E and AC. -/
def execFdvrb (ac : AcNum) (a : AddrSpec) (s : State) : Out := arithGroup .both immFloat (fdvCore s.cfg true) ac a s

/-! ## Fixed ports (R163) -/

/-- R411: UFA, C(AC), C(E) to AC+1 only. -/
def execUfa (ac : AcNum) (a : AddrSpec) (s : State) : Out :=
  withE s a fun e => withWord s (loc e) fun b => retire s (ufaCore (s.ac ac) b) fun r s' => s'.setAc (ac + 1) r

/-- R413: FIX. -/
def execFix (ac : AcNum) (a : AddrSpec) (s : State) : Out := unaryGroup fixCore ac a s

/-- R414: FIXR. -/
def execFixr (ac : AcNum) (a : AddrSpec) (s : State) : Out := unaryGroup fixrCore ac a s

/-- R415: FLTR. -/
def execFltr (ac : AcNum) (a : AddrSpec) (s : State) : Out := unaryGroup fltrCore ac a s

/-- R416: FSC. -/
def execFsc (ac : AcNum) (a : AddrSpec) (s : State) : Out := countGroup fscCore ac a s

end Sys2Proof.Machine
end

