-- ==== Sys2Proof/Machine/FloatDouble.lean ====
section
/-! DEFINITION. Double-precision and G-format floating instructions: DFAD, DFSB, DFMP, DFDV, GFAD, GFSB, GFMP, GFDV and
the nine EXTEND instructions (45_float_double.md R450-R474). -/

namespace Sys2Proof.Machine

/-! ## Operations of the core -/

/-- R451, R461: the sum of two D or G operands. -/
def floatAddCore (φ : Fmt) (rnd : Bool) (a b : Word × Word) : CoreOutcome (Word × Word) :=
  resPair φ ((val φ a).add (val φ b)) rnd

/-- R452, R462: their difference. -/
def floatSubCore (φ : Fmt) (rnd : Bool) (a b : Word × Word) : CoreOutcome (Word × Word) :=
  resPair φ ((val φ a).sub (val φ b)) rnd

/-- R453, R463: their product. -/
def floatMulCore (φ : Fmt) (rnd : Bool) (a b : Word × Word) : CoreOutcome (Word × Word) :=
  resPair φ ((val φ a).mul (val φ b)) rnd

/-- R454: DFDV; every negative quotient is in its quirk band. -/
def dfdvCore (cfg : Params) (a b : Word × Word) : CoreOutcome (Word × Word) :=
  if floatDivideFails .d a b then .noDivide .fdivf
  else
    let x := (val .d a).div (val .d b)
    if cfg.fidelity = .hardware ∧ x.num < 0 then quirk (Config.qDfdv cfg.cpuModel a b) else resPair .d x cfg.doubleRound

/-- R464: GFDV; it has no quirk band. -/
def gfdvCore (a b : Word × Word) : CoreOutcome (Word × Word) :=
  if floatDivideFails .g a b then .noDivide .fdivf else resPair .g ((val .g a).div (val .g b)) true

/-- R465, R466: GFIX. -/
def gfixCore (b : Word × Word) : CoreOutcome Word :=
  if 0o2043 < (unpack .g b).1 then .noStore .ovf else .done (mod36 (val .g b).trunc) .none

/-- R465, R467: GFIXR. -/
def gfixrCore (b : Word × Word) : CoreOutcome Word :=
  if 0o2043 < (unpack .g b).1 then .noStore .ovf else .done (mod36 (val .g b).roundHalfUp) .none

/-- R465, R468: DGFIX. -/
def dgfixCore (b : Word × Word) : CoreOutcome (Word × Word) :=
  if 0o2106 < (unpack .g b).1 then .noStore .ovf else .done (split71 (BitVec.ofInt 71 (val .g b).trunc)) .none

/-- R465, R469: DGFIXR. -/
def dgfixrCore (b : Word × Word) : CoreOutcome (Word × Word) :=
  if 0o2106 < (unpack .g b).1 then .noStore .ovf else .done (split71 (BitVec.ofInt 71 (val .g b).roundHalfUp)) .none

/-- R470: GFSC; an all-ones fraction field with a positive scale is in its quirk band. -/
def gfscCore (cfg : Params) (a : Word × Word) (c : Int) : CoreOutcome (Word × Word) :=
  if cfg.fidelity = .hardware ∧ (unpack .g a).2 % 2 ^ 59 = 2 ^ 59 - 1 ∧ 0 < c then
    quirk (Config.qGfsc cfg.cpuModel a c)
  else resPair .g ((val .g a).scale c) false

/-- R471: GFLTR. -/
def gfltrCore (b : Word) : CoreOutcome (Word × Word) := resPair .g (.ofInt (s36 b)) true

/-- R472: DGFLTR. -/
def dgfltrCore (b : Word × Word) : CoreOutcome (Word × Word) := resPair .g (.ofInt (dval b)) true

/-- R473: GSNGL. -/
def gsnglCore (b : Word × Word) : CoreOutcome Word := resF (val .g b) true

/-- R474: GDBLE. -/
def gdbleCore (b : Word) : CoreOutcome (Word × Word) := resPair .g (valF b) false

/-! ## D-format arithmetic (R163) -/

/-- R451: DFAD. -/
def execDfad (ac : AcNum) (a : AddrSpec) (s : State) : Out :=
  doubleGroup (floatAddCore .d s.cfg.doubleRound) ac a s

/-- R452: DFSB. -/
def execDfsb (ac : AcNum) (a : AddrSpec) (s : State) : Out :=
  doubleGroup (floatSubCore .d s.cfg.doubleRound) ac a s

/-- R453: DFMP. -/
def execDfmp (ac : AcNum) (a : AddrSpec) (s : State) : Out :=
  doubleGroup (floatMulCore .d s.cfg.doubleRound) ac a s

/-- R454: DFDV. -/
def execDfdv (ac : AcNum) (a : AddrSpec) (s : State) : Out := doubleGroup (dfdvCore s.cfg) ac a s

/-! ## G-format arithmetic (R460, R163) -/

/-- R461: GFAD. -/
def execGfad (ac : AcNum) (a : AddrSpec) (s : State) : Out :=
  ifGfloat 0o102 none s (doubleGroup (floatAddCore .g true) ac a)

/-- R462: GFSB. -/
def execGfsb (ac : AcNum) (a : AddrSpec) (s : State) : Out :=
  ifGfloat 0o103 none s (doubleGroup (floatSubCore .g true) ac a)

/-- R463: GFMP. -/
def execGfmp (ac : AcNum) (a : AddrSpec) (s : State) : Out :=
  ifGfloat 0o106 none s (doubleGroup (floatMulCore .g true) ac a)

/-- R464: GFDV. -/
def execGfdv (ac : AcNum) (a : AddrSpec) (s : State) : Out := ifGfloat 0o107 none s (doubleGroup gfdvCore ac a)

/-! ## The EXTEND instructions (R152, R163): accumulator of the first word, operand address E1 of the extended word -/

/-- R473: GSNGL. -/
def execGsngl (ac : AcNum) (a1 : AddrSpec) (s : State) : Out :=
  ifGfloat extendOp (some 0o021) s (narrowGroup gsnglCore ac a1)

/-- R474: GDBLE. -/
def execGdble (ac : AcNum) (a1 : AddrSpec) (s : State) : Out :=
  ifGfloat extendOp (some 0o022) s (widenGroup gdbleCore ac a1)

/-- R468: DGFIX. -/
def execDgfix (ac : AcNum) (a1 : AddrSpec) (s : State) : Out :=
  ifGfloat extendOp (some 0o023) s (pairFromMemGroup dgfixCore ac a1)

/-- R466: GFIX. -/
def execGfix (ac : AcNum) (a1 : AddrSpec) (s : State) : Out :=
  ifGfloat extendOp (some 0o024) s (narrowGroup gfixCore ac a1)

/-- R469: DGFIXR. -/
def execDgfixr (ac : AcNum) (a1 : AddrSpec) (s : State) : Out :=
  ifGfloat extendOp (some 0o025) s (pairFromMemGroup dgfixrCore ac a1)

/-- R467: GFIXR. -/
def execGfixr (ac : AcNum) (a1 : AddrSpec) (s : State) : Out :=
  ifGfloat extendOp (some 0o026) s (narrowGroup gfixrCore ac a1)

/-- R472: DGFLTR. -/
def execDgfltr (ac : AcNum) (a1 : AddrSpec) (s : State) : Out :=
  ifGfloat extendOp (some 0o027) s (pairFromMemGroup dgfltrCore ac a1)

/-- R471: GFLTR. -/
def execGfltr (ac : AcNum) (a1 : AddrSpec) (s : State) : Out :=
  ifGfloat extendOp (some 0o030) s (widenGroup gfltrCore ac a1)

/-- R470: GFSC. -/
def execGfsc (ac : AcNum) (a1 : AddrSpec) (s : State) : Out :=
  ifGfloat extendOp (some 0o031) s (countPairGroup (gfscCore s.cfg) ac a1)

end Sys2Proof.Machine
end

