-- ==== Sys2Proof/Machine/LogicShift.lean ====
section
/-! DEFINITION. Logic and shift unit: the sixteen boolean functions (42_logic_shift.md R300-R316) and ASH, ROT, LSH, ASHC,
ROTC, LSHC (R320-R326). -/

namespace Sys2Proof.Machine

/-! ## Operations of the core -/

/-- R300: an operation of the boolean unit; no flags, no exceptions. -/
def boolCore (f : Word → Word → Word) (a b : Word) : CoreOutcome Word := .done (f a b) .none

/-- R301. -/
def fnSetz (_a _b : Word) : Word := 0
/-- R302. -/
def fnAnd (a b : Word) : Word := a &&& b
/-- R303. -/
def fnAndca (a b : Word) : Word := ~~~a &&& b
/-- R304. -/
def fnSetm (_a b : Word) : Word := b
/-- R305. -/
def fnAndcm (a b : Word) : Word := a &&& ~~~b
/-- R306. -/
def fnSeta (a _b : Word) : Word := a
/-- R307. -/
def fnXor (a b : Word) : Word := a ^^^ b
/-- R308. -/
def fnIor (a b : Word) : Word := a ||| b
/-- R309. -/
def fnAndcb (a b : Word) : Word := ~~~a &&& ~~~b
/-- R310. -/
def fnEqv (a b : Word) : Word := ~~~(a ^^^ b)
/-- R311. -/
def fnSetca (a _b : Word) : Word := ~~~a
/-- R312. -/
def fnOrca (a b : Word) : Word := ~~~a ||| b
/-- R313. -/
def fnSetcm (_a b : Word) : Word := ~~~b
/-- R314. -/
def fnOrcm (a b : Word) : Word := a ||| ~~~b
/-- R315. -/
def fnOrcb (a b : Word) : Word := ~~~a ||| ~~~b
/-- R316. -/
def fnSeto (_a _b : Word) : Word := ones

/-- R321: ASH; a left shift keeps the sign and reports a bit shifted out of bit 34 that differs from it. -/
def ashCore (x : Word) (c : Int) : CoreOutcome Word :=
  if 0 ≤ c then
    let v := s36 x * 2 ^ c.toNat
    .done (x.extractLsb' 35 1 ++ BitVec.ofInt 35 v : BitVec (1 + 35))
      (.when (decide (v < -2 ^ 35) || decide (2 ^ 35 ≤ v)) .ovf)
  else .done (mod36 (s36 x / 2 ^ (-c).toNat)) .none

/-- R322: ROT. -/
def rotCore (x : Word) (c : Int) : CoreOutcome Word :=
  let k := (c % 36).toNat
  .done (BitVec.ofNat 36 (x.toNat * 2 ^ k) ||| BitVec.ofNat 36 (x.toNat / 2 ^ (36 - k))) .none

/-- R323: LSH. -/
def lshCore (x : Word) (c : Int) : CoreOutcome Word :=
  if 0 ≤ c then .done (BitVec.ofNat 36 (x.toNat * 2 ^ c.toNat)) .none
  else .done (BitVec.ofNat 36 (x.toNat / 2 ^ (-c).toNat)) .none

/-- R324: ASHC over the 71-bit value of AC, AC+1; a count of 0 changes neither word (D24). -/
def ashcCore (d : Word × Word) (c : Int) : CoreOutcome (Word × Word) :=
  if c = 0 then .done d .none
  else if 0 < c then
    let w := dval d * 2 ^ c.toNat
    .done (split71 (d.1.extractLsb' 35 1 ++ BitVec.ofInt 70 w : BitVec (1 + 70)))
      (.when (decide (w < -2 ^ 70) || decide (2 ^ 70 ≤ w)) .ovf)
  else .done (split71 (BitVec.ofInt 71 (dval d / 2 ^ (-c).toNat))) .none

/-- R325, R326: AC and AC+1 as one value of 72 bits. -/
def join72 (d : Word × Word) : Nat := d.1.toNat * 2 ^ 36 + d.2.toNat

/-- R325, R326: 72 bits as two words. -/
def split72 (z : Nat) : Word × Word := (BitVec.ofNat 36 (z / 2 ^ 36), BitVec.ofNat 36 z)

/-- R325: ROTC. -/
def rotcCore (d : Word × Word) (c : Int) : CoreOutcome (Word × Word) :=
  let k := (c % 72).toNat
  .done (split72 ((join72 d * 2 ^ k) % 2 ^ 72 ||| join72 d / 2 ^ (72 - k))) .none

/-- R326: LSHC. -/
def lshcCore (d : Word × Word) (c : Int) : CoreOutcome (Word × Word) :=
  if 0 ≤ c then .done (split72 ((join72 d * 2 ^ c.toNat) % 2 ^ 72)) .none
  else .done (split72 (join72 d / 2 ^ (-c).toNat)) .none

/-! ## Boolean instructions (R300-R316, R158) -/

/-- R301: SETZ, C(AC), C(E) to AC. -/
def execSetz (ac : AcNum) (a : AddrSpec) (s : State) : Out := arithGroup .basic immWord (boolCore fnSetz) ac a s

/-- R301: SETZI, C(AC), `0,,E` to AC. -/
def execSetzi (ac : AcNum) (a : AddrSpec) (s : State) : Out := arithGroup .immediate immWord (boolCore fnSetz) ac a s

/-- R301: SETZM, C(AC), C(E) to E. -/
def execSetzm (ac : AcNum) (a : AddrSpec) (s : State) : Out := arithGroup .memory immWord (boolCore fnSetz) ac a s

/-- R301: SETZB, C(AC), C(E) to E and AC. -/
def execSetzb (ac : AcNum) (a : AddrSpec) (s : State) : Out := arithGroup .both immWord (boolCore fnSetz) ac a s

/-- R302: AND, C(AC), C(E) to AC. -/
def execAnd (ac : AcNum) (a : AddrSpec) (s : State) : Out := arithGroup .basic immWord (boolCore fnAnd) ac a s

/-- R302: ANDI, C(AC), `0,,E` to AC. -/
def execAndi (ac : AcNum) (a : AddrSpec) (s : State) : Out := arithGroup .immediate immWord (boolCore fnAnd) ac a s

/-- R302: ANDM, C(AC), C(E) to E. -/
def execAndm (ac : AcNum) (a : AddrSpec) (s : State) : Out := arithGroup .memory immWord (boolCore fnAnd) ac a s

/-- R302: ANDB, C(AC), C(E) to E and AC. -/
def execAndb (ac : AcNum) (a : AddrSpec) (s : State) : Out := arithGroup .both immWord (boolCore fnAnd) ac a s

/-- R303: ANDCA, C(AC), C(E) to AC. -/
def execAndca (ac : AcNum) (a : AddrSpec) (s : State) : Out := arithGroup .basic immWord (boolCore fnAndca) ac a s

/-- R303: ANDCAI, C(AC), `0,,E` to AC. -/
def execAndcai (ac : AcNum) (a : AddrSpec) (s : State) : Out := arithGroup .immediate immWord (boolCore fnAndca) ac a s

/-- R303: ANDCAM, C(AC), C(E) to E. -/
def execAndcam (ac : AcNum) (a : AddrSpec) (s : State) : Out := arithGroup .memory immWord (boolCore fnAndca) ac a s

/-- R303: ANDCAB, C(AC), C(E) to E and AC. -/
def execAndcab (ac : AcNum) (a : AddrSpec) (s : State) : Out := arithGroup .both immWord (boolCore fnAndca) ac a s

/-- R304: SETM, C(AC), C(E) to AC. -/
def execSetm (ac : AcNum) (a : AddrSpec) (s : State) : Out := arithGroup .basic immWord (boolCore fnSetm) ac a s

/-- R304: SETMI, C(AC), `0,,E` to AC. -/
def execSetmi (ac : AcNum) (a : AddrSpec) (s : State) : Out := arithGroup .immediate immWord (boolCore fnSetm) ac a s

/-- R304: SETMM, C(AC), C(E) to E. -/
def execSetmm (ac : AcNum) (a : AddrSpec) (s : State) : Out := arithGroup .memory immWord (boolCore fnSetm) ac a s

/-- R304: SETMB, C(AC), C(E) to E and AC. -/
def execSetmb (ac : AcNum) (a : AddrSpec) (s : State) : Out := arithGroup .both immWord (boolCore fnSetm) ac a s

/-- R305: ANDCM, C(AC), C(E) to AC. -/
def execAndcm (ac : AcNum) (a : AddrSpec) (s : State) : Out := arithGroup .basic immWord (boolCore fnAndcm) ac a s

/-- R305: ANDCMI, C(AC), `0,,E` to AC. -/
def execAndcmi (ac : AcNum) (a : AddrSpec) (s : State) : Out := arithGroup .immediate immWord (boolCore fnAndcm) ac a s

/-- R305: ANDCMM, C(AC), C(E) to E. -/
def execAndcmm (ac : AcNum) (a : AddrSpec) (s : State) : Out := arithGroup .memory immWord (boolCore fnAndcm) ac a s

/-- R305: ANDCMB, C(AC), C(E) to E and AC. -/
def execAndcmb (ac : AcNum) (a : AddrSpec) (s : State) : Out := arithGroup .both immWord (boolCore fnAndcm) ac a s

/-- R306: SETA, C(AC), C(E) to AC. -/
def execSeta (ac : AcNum) (a : AddrSpec) (s : State) : Out := arithGroup .basic immWord (boolCore fnSeta) ac a s

/-- R306: SETAI, C(AC), `0,,E` to AC. -/
def execSetai (ac : AcNum) (a : AddrSpec) (s : State) : Out := arithGroup .immediate immWord (boolCore fnSeta) ac a s

/-- R306: SETAM, C(AC), C(E) to E. -/
def execSetam (ac : AcNum) (a : AddrSpec) (s : State) : Out := arithGroup .memory immWord (boolCore fnSeta) ac a s

/-- R306: SETAB, C(AC), C(E) to E and AC. -/
def execSetab (ac : AcNum) (a : AddrSpec) (s : State) : Out := arithGroup .both immWord (boolCore fnSeta) ac a s

/-- R307: XOR, C(AC), C(E) to AC. -/
def execXor (ac : AcNum) (a : AddrSpec) (s : State) : Out := arithGroup .basic immWord (boolCore fnXor) ac a s

/-- R307: XORI, C(AC), `0,,E` to AC. -/
def execXori (ac : AcNum) (a : AddrSpec) (s : State) : Out := arithGroup .immediate immWord (boolCore fnXor) ac a s

/-- R307: XORM, C(AC), C(E) to E. -/
def execXorm (ac : AcNum) (a : AddrSpec) (s : State) : Out := arithGroup .memory immWord (boolCore fnXor) ac a s

/-- R307: XORB, C(AC), C(E) to E and AC. -/
def execXorb (ac : AcNum) (a : AddrSpec) (s : State) : Out := arithGroup .both immWord (boolCore fnXor) ac a s

/-- R308: IOR, C(AC), C(E) to AC. -/
def execIor (ac : AcNum) (a : AddrSpec) (s : State) : Out := arithGroup .basic immWord (boolCore fnIor) ac a s

/-- R308: IORI, C(AC), `0,,E` to AC. -/
def execIori (ac : AcNum) (a : AddrSpec) (s : State) : Out := arithGroup .immediate immWord (boolCore fnIor) ac a s

/-- R308: IORM, C(AC), C(E) to E. -/
def execIorm (ac : AcNum) (a : AddrSpec) (s : State) : Out := arithGroup .memory immWord (boolCore fnIor) ac a s

/-- R308: IORB, C(AC), C(E) to E and AC. -/
def execIorb (ac : AcNum) (a : AddrSpec) (s : State) : Out := arithGroup .both immWord (boolCore fnIor) ac a s

/-- R309: ANDCB, C(AC), C(E) to AC. -/
def execAndcb (ac : AcNum) (a : AddrSpec) (s : State) : Out := arithGroup .basic immWord (boolCore fnAndcb) ac a s

/-- R309: ANDCBI, C(AC), `0,,E` to AC. -/
def execAndcbi (ac : AcNum) (a : AddrSpec) (s : State) : Out := arithGroup .immediate immWord (boolCore fnAndcb) ac a s

/-- R309: ANDCBM, C(AC), C(E) to E. -/
def execAndcbm (ac : AcNum) (a : AddrSpec) (s : State) : Out := arithGroup .memory immWord (boolCore fnAndcb) ac a s

/-- R309: ANDCBB, C(AC), C(E) to E and AC. -/
def execAndcbb (ac : AcNum) (a : AddrSpec) (s : State) : Out := arithGroup .both immWord (boolCore fnAndcb) ac a s

/-- R310: EQV, C(AC), C(E) to AC. -/
def execEqv (ac : AcNum) (a : AddrSpec) (s : State) : Out := arithGroup .basic immWord (boolCore fnEqv) ac a s

/-- R310: EQVI, C(AC), `0,,E` to AC. -/
def execEqvi (ac : AcNum) (a : AddrSpec) (s : State) : Out := arithGroup .immediate immWord (boolCore fnEqv) ac a s

/-- R310: EQVM, C(AC), C(E) to E. -/
def execEqvm (ac : AcNum) (a : AddrSpec) (s : State) : Out := arithGroup .memory immWord (boolCore fnEqv) ac a s

/-- R310: EQVB, C(AC), C(E) to E and AC. -/
def execEqvb (ac : AcNum) (a : AddrSpec) (s : State) : Out := arithGroup .both immWord (boolCore fnEqv) ac a s

/-- R311: SETCA, C(AC), C(E) to AC. -/
def execSetca (ac : AcNum) (a : AddrSpec) (s : State) : Out := arithGroup .basic immWord (boolCore fnSetca) ac a s

/-- R311: SETCAI, C(AC), `0,,E` to AC. -/
def execSetcai (ac : AcNum) (a : AddrSpec) (s : State) : Out := arithGroup .immediate immWord (boolCore fnSetca) ac a s

/-- R311: SETCAM, C(AC), C(E) to E. -/
def execSetcam (ac : AcNum) (a : AddrSpec) (s : State) : Out := arithGroup .memory immWord (boolCore fnSetca) ac a s

/-- R311: SETCAB, C(AC), C(E) to E and AC. -/
def execSetcab (ac : AcNum) (a : AddrSpec) (s : State) : Out := arithGroup .both immWord (boolCore fnSetca) ac a s

/-- R312: ORCA, C(AC), C(E) to AC. -/
def execOrca (ac : AcNum) (a : AddrSpec) (s : State) : Out := arithGroup .basic immWord (boolCore fnOrca) ac a s

/-- R312: ORCAI, C(AC), `0,,E` to AC. -/
def execOrcai (ac : AcNum) (a : AddrSpec) (s : State) : Out := arithGroup .immediate immWord (boolCore fnOrca) ac a s

/-- R312: ORCAM, C(AC), C(E) to E. -/
def execOrcam (ac : AcNum) (a : AddrSpec) (s : State) : Out := arithGroup .memory immWord (boolCore fnOrca) ac a s

/-- R312: ORCAB, C(AC), C(E) to E and AC. -/
def execOrcab (ac : AcNum) (a : AddrSpec) (s : State) : Out := arithGroup .both immWord (boolCore fnOrca) ac a s

/-- R313: SETCM, C(AC), C(E) to AC. -/
def execSetcm (ac : AcNum) (a : AddrSpec) (s : State) : Out := arithGroup .basic immWord (boolCore fnSetcm) ac a s

/-- R313: SETCMI, C(AC), `0,,E` to AC. -/
def execSetcmi (ac : AcNum) (a : AddrSpec) (s : State) : Out := arithGroup .immediate immWord (boolCore fnSetcm) ac a s

/-- R313: SETCMM, C(AC), C(E) to E. -/
def execSetcmm (ac : AcNum) (a : AddrSpec) (s : State) : Out := arithGroup .memory immWord (boolCore fnSetcm) ac a s

/-- R313: SETCMB, C(AC), C(E) to E and AC. -/
def execSetcmb (ac : AcNum) (a : AddrSpec) (s : State) : Out := arithGroup .both immWord (boolCore fnSetcm) ac a s

/-- R314: ORCM, C(AC), C(E) to AC. -/
def execOrcm (ac : AcNum) (a : AddrSpec) (s : State) : Out := arithGroup .basic immWord (boolCore fnOrcm) ac a s

/-- R314: ORCMI, C(AC), `0,,E` to AC. -/
def execOrcmi (ac : AcNum) (a : AddrSpec) (s : State) : Out := arithGroup .immediate immWord (boolCore fnOrcm) ac a s

/-- R314: ORCMM, C(AC), C(E) to E. -/
def execOrcmm (ac : AcNum) (a : AddrSpec) (s : State) : Out := arithGroup .memory immWord (boolCore fnOrcm) ac a s

/-- R314: ORCMB, C(AC), C(E) to E and AC. -/
def execOrcmb (ac : AcNum) (a : AddrSpec) (s : State) : Out := arithGroup .both immWord (boolCore fnOrcm) ac a s

/-- R315: ORCB, C(AC), C(E) to AC. -/
def execOrcb (ac : AcNum) (a : AddrSpec) (s : State) : Out := arithGroup .basic immWord (boolCore fnOrcb) ac a s

/-- R315: ORCBI, C(AC), `0,,E` to AC. -/
def execOrcbi (ac : AcNum) (a : AddrSpec) (s : State) : Out := arithGroup .immediate immWord (boolCore fnOrcb) ac a s

/-- R315: ORCBM, C(AC), C(E) to E. -/
def execOrcbm (ac : AcNum) (a : AddrSpec) (s : State) : Out := arithGroup .memory immWord (boolCore fnOrcb) ac a s

/-- R315: ORCBB, C(AC), C(E) to E and AC. -/
def execOrcbb (ac : AcNum) (a : AddrSpec) (s : State) : Out := arithGroup .both immWord (boolCore fnOrcb) ac a s

/-- R316: SETO, C(AC), C(E) to AC. -/
def execSeto (ac : AcNum) (a : AddrSpec) (s : State) : Out := arithGroup .basic immWord (boolCore fnSeto) ac a s

/-- R316: SETOI, C(AC), `0,,E` to AC. -/
def execSetoi (ac : AcNum) (a : AddrSpec) (s : State) : Out := arithGroup .immediate immWord (boolCore fnSeto) ac a s

/-- R316: SETOM, C(AC), C(E) to E. -/
def execSetom (ac : AcNum) (a : AddrSpec) (s : State) : Out := arithGroup .memory immWord (boolCore fnSeto) ac a s

/-- R316: SETOB, C(AC), C(E) to E and AC. -/
def execSetob (ac : AcNum) (a : AddrSpec) (s : State) : Out := arithGroup .both immWord (boolCore fnSeto) ac a s

/-! ## Shifts and rotates (R320-R326, R163) -/

/-- R321: ASH. -/
def execAsh (ac : AcNum) (a : AddrSpec) (s : State) : Out := countGroup ashCore ac a s

/-- R322: ROT. -/
def execRot (ac : AcNum) (a : AddrSpec) (s : State) : Out := countGroup rotCore ac a s

/-- R323: LSH. -/
def execLsh (ac : AcNum) (a : AddrSpec) (s : State) : Out := countGroup lshCore ac a s

/-- R324: ASHC. -/
def execAshc (ac : AcNum) (a : AddrSpec) (s : State) : Out := countPairGroup ashcCore ac a s

/-- R325: ROTC. -/
def execRotc (ac : AcNum) (a : AddrSpec) (s : State) : Out := countPairGroup rotcCore ac a s

/-- R326: LSHC. -/
def execLshc (ac : AcNum) (a : AddrSpec) (s : State) : Out := countPairGroup lshcCore ac a s

end Sys2Proof.Machine
end

