-- ==== Sys2Proof/Machine/Dispatch.lean ====
section
/-! DEFINITION. exec: each instruction of the core is given its meaning. -/

namespace Sys2Proof.Machine

def exec (i : Instr) (s : State) : Host.Outcome State Fault Refusal :=
  match i with
  -- Fixed add and subtract: R204, R205 in the modes of R158.
  | .add ac a => Sys2Proof.Machine.execAdd ac a s
  | .addi ac a => Sys2Proof.Machine.execAddi ac a s
  | .addm ac a => Sys2Proof.Machine.execAddm ac a s
  | .addb ac a => Sys2Proof.Machine.execAddb ac a s
  | .sub ac a => Sys2Proof.Machine.execSub ac a s
  | .subi ac a => Sys2Proof.Machine.execSubi ac a s
  | .subm ac a => Sys2Proof.Machine.execSubm ac a s
  | .subb ac a => Sys2Proof.Machine.execSubb ac a s
  -- Negate and magnitude: R206, R207 in the modes of R161.
  | .movn ac a => Sys2Proof.Machine.execMovn ac a s
  | .movni ac a => Sys2Proof.Machine.execMovni ac a s
  | .movnm ac a => Sys2Proof.Machine.execMovnm ac a s
  | .movns ac a => Sys2Proof.Machine.execMovns ac a s
  | .movm ac a => Sys2Proof.Machine.execMovm ac a s
  | .movmi ac a => Sys2Proof.Machine.execMovmi ac a s
  | .movmm ac a => Sys2Proof.Machine.execMovmm ac a s
  | .movms ac a => Sys2Proof.Machine.execMovms ac a s
  -- Increment and decrement: R208, R209 with the conditions of R162.
  | .aoj ac a => Sys2Proof.Machine.execAoj ac a s
  | .aojl ac a => Sys2Proof.Machine.execAojl ac a s
  | .aoje ac a => Sys2Proof.Machine.execAoje ac a s
  | .aojle ac a => Sys2Proof.Machine.execAojle ac a s
  | .aoja ac a => Sys2Proof.Machine.execAoja ac a s
  | .aojge ac a => Sys2Proof.Machine.execAojge ac a s
  | .aojn ac a => Sys2Proof.Machine.execAojn ac a s
  | .aojg ac a => Sys2Proof.Machine.execAojg ac a s
  | .aos ac a => Sys2Proof.Machine.execAos ac a s
  | .aosl ac a => Sys2Proof.Machine.execAosl ac a s
  | .aose ac a => Sys2Proof.Machine.execAose ac a s
  | .aosle ac a => Sys2Proof.Machine.execAosle ac a s
  | .aosa ac a => Sys2Proof.Machine.execAosa ac a s
  | .aosge ac a => Sys2Proof.Machine.execAosge ac a s
  | .aosn ac a => Sys2Proof.Machine.execAosn ac a s
  | .aosg ac a => Sys2Proof.Machine.execAosg ac a s
  | .soj ac a => Sys2Proof.Machine.execSoj ac a s
  | .sojl ac a => Sys2Proof.Machine.execSojl ac a s
  | .soje ac a => Sys2Proof.Machine.execSoje ac a s
  | .sojle ac a => Sys2Proof.Machine.execSojle ac a s
  | .soja ac a => Sys2Proof.Machine.execSoja ac a s
  | .sojge ac a => Sys2Proof.Machine.execSojge ac a s
  | .sojn ac a => Sys2Proof.Machine.execSojn ac a s
  | .sojg ac a => Sys2Proof.Machine.execSojg ac a s
  | .sos ac a => Sys2Proof.Machine.execSos ac a s
  | .sosl ac a => Sys2Proof.Machine.execSosl ac a s
  | .sose ac a => Sys2Proof.Machine.execSose ac a s
  | .sosle ac a => Sys2Proof.Machine.execSosle ac a s
  | .sosa ac a => Sys2Proof.Machine.execSosa ac a s
  | .sosge ac a => Sys2Proof.Machine.execSosge ac a s
  | .sosn ac a => Sys2Proof.Machine.execSosn ac a s
  | .sosg ac a => Sys2Proof.Machine.execSosg ac a s
  -- Double fixed: R211-R213, R255, R258.
  | .dadd ac a => Sys2Proof.Machine.execDadd ac a s
  | .dsub ac a => Sys2Proof.Machine.execDsub ac a s
  | .dmul ac a => Sys2Proof.Machine.execDmul ac a s
  | .ddiv ac a => Sys2Proof.Machine.execDdiv ac a s
  | .dmovn ac a => Sys2Proof.Machine.execDmovn ac a s
  | .dmovnm ac a => Sys2Proof.Machine.execDmovnm ac a s
  -- Multiply and divide: R253, R254, R256, R257 in the modes of R160.
  | .imul ac a => Sys2Proof.Machine.execImul ac a s
  | .imuli ac a => Sys2Proof.Machine.execImuli ac a s
  | .imulm ac a => Sys2Proof.Machine.execImulm ac a s
  | .imulb ac a => Sys2Proof.Machine.execImulb ac a s
  | .mul ac a => Sys2Proof.Machine.execMul ac a s
  | .muli ac a => Sys2Proof.Machine.execMuli ac a s
  | .mulm ac a => Sys2Proof.Machine.execMulm ac a s
  | .mulb ac a => Sys2Proof.Machine.execMulb ac a s
  | .idiv ac a => Sys2Proof.Machine.execIdiv ac a s
  | .idivi ac a => Sys2Proof.Machine.execIdivi ac a s
  | .idivm ac a => Sys2Proof.Machine.execIdivm ac a s
  | .idivb ac a => Sys2Proof.Machine.execIdivb ac a s
  | .div ac a => Sys2Proof.Machine.execDiv ac a s
  | .divi ac a => Sys2Proof.Machine.execDivi ac a s
  | .divm ac a => Sys2Proof.Machine.execDivm ac a s
  | .divb ac a => Sys2Proof.Machine.execDivb ac a s
  -- Boolean functions: R300-R316 in the modes of R158.
  | .setz ac a => Sys2Proof.Machine.execSetz ac a s
  | .setzi ac a => Sys2Proof.Machine.execSetzi ac a s
  | .setzm ac a => Sys2Proof.Machine.execSetzm ac a s
  | .setzb ac a => Sys2Proof.Machine.execSetzb ac a s
  | .and ac a => Sys2Proof.Machine.execAnd ac a s
  | .andi ac a => Sys2Proof.Machine.execAndi ac a s
  | .andm ac a => Sys2Proof.Machine.execAndm ac a s
  | .andb ac a => Sys2Proof.Machine.execAndb ac a s
  | .andca ac a => Sys2Proof.Machine.execAndca ac a s
  | .andcai ac a => Sys2Proof.Machine.execAndcai ac a s
  | .andcam ac a => Sys2Proof.Machine.execAndcam ac a s
  | .andcab ac a => Sys2Proof.Machine.execAndcab ac a s
  | .setm ac a => Sys2Proof.Machine.execSetm ac a s
  | .setmi ac a => Sys2Proof.Machine.execSetmi ac a s
  | .setmm ac a => Sys2Proof.Machine.execSetmm ac a s
  | .setmb ac a => Sys2Proof.Machine.execSetmb ac a s
  | .andcm ac a => Sys2Proof.Machine.execAndcm ac a s
  | .andcmi ac a => Sys2Proof.Machine.execAndcmi ac a s
  | .andcmm ac a => Sys2Proof.Machine.execAndcmm ac a s
  | .andcmb ac a => Sys2Proof.Machine.execAndcmb ac a s
  | .seta ac a => Sys2Proof.Machine.execSeta ac a s
  | .setai ac a => Sys2Proof.Machine.execSetai ac a s
  | .setam ac a => Sys2Proof.Machine.execSetam ac a s
  | .setab ac a => Sys2Proof.Machine.execSetab ac a s
  | .xor ac a => Sys2Proof.Machine.execXor ac a s
  | .xori ac a => Sys2Proof.Machine.execXori ac a s
  | .xorm ac a => Sys2Proof.Machine.execXorm ac a s
  | .xorb ac a => Sys2Proof.Machine.execXorb ac a s
  | .ior ac a => Sys2Proof.Machine.execIor ac a s
  | .iori ac a => Sys2Proof.Machine.execIori ac a s
  | .iorm ac a => Sys2Proof.Machine.execIorm ac a s
  | .iorb ac a => Sys2Proof.Machine.execIorb ac a s
  | .andcb ac a => Sys2Proof.Machine.execAndcb ac a s
  | .andcbi ac a => Sys2Proof.Machine.execAndcbi ac a s
  | .andcbm ac a => Sys2Proof.Machine.execAndcbm ac a s
  | .andcbb ac a => Sys2Proof.Machine.execAndcbb ac a s
  | .eqv ac a => Sys2Proof.Machine.execEqv ac a s
  | .eqvi ac a => Sys2Proof.Machine.execEqvi ac a s
  | .eqvm ac a => Sys2Proof.Machine.execEqvm ac a s
  | .eqvb ac a => Sys2Proof.Machine.execEqvb ac a s
  | .setca ac a => Sys2Proof.Machine.execSetca ac a s
  | .setcai ac a => Sys2Proof.Machine.execSetcai ac a s
  | .setcam ac a => Sys2Proof.Machine.execSetcam ac a s
  | .setcab ac a => Sys2Proof.Machine.execSetcab ac a s
  | .orca ac a => Sys2Proof.Machine.execOrca ac a s
  | .orcai ac a => Sys2Proof.Machine.execOrcai ac a s
  | .orcam ac a => Sys2Proof.Machine.execOrcam ac a s
  | .orcab ac a => Sys2Proof.Machine.execOrcab ac a s
  | .setcm ac a => Sys2Proof.Machine.execSetcm ac a s
  | .setcmi ac a => Sys2Proof.Machine.execSetcmi ac a s
  | .setcmm ac a => Sys2Proof.Machine.execSetcmm ac a s
  | .setcmb ac a => Sys2Proof.Machine.execSetcmb ac a s
  | .orcm ac a => Sys2Proof.Machine.execOrcm ac a s
  | .orcmi ac a => Sys2Proof.Machine.execOrcmi ac a s
  | .orcmm ac a => Sys2Proof.Machine.execOrcmm ac a s
  | .orcmb ac a => Sys2Proof.Machine.execOrcmb ac a s
  | .orcb ac a => Sys2Proof.Machine.execOrcb ac a s
  | .orcbi ac a => Sys2Proof.Machine.execOrcbi ac a s
  | .orcbm ac a => Sys2Proof.Machine.execOrcbm ac a s
  | .orcbb ac a => Sys2Proof.Machine.execOrcbb ac a s
  | .seto ac a => Sys2Proof.Machine.execSeto ac a s
  | .setoi ac a => Sys2Proof.Machine.execSetoi ac a s
  | .setom ac a => Sys2Proof.Machine.execSetom ac a s
  | .setob ac a => Sys2Proof.Machine.execSetob ac a s
  -- Shifts and rotates: R320-R326.
  | .ash ac a => Sys2Proof.Machine.execAsh ac a s
  | .rot ac a => Sys2Proof.Machine.execRot ac a s
  | .lsh ac a => Sys2Proof.Machine.execLsh ac a s
  | .ashc ac a => Sys2Proof.Machine.execAshc ac a s
  | .rotc ac a => Sys2Proof.Machine.execRotc ac a s
  | .lshc ac a => Sys2Proof.Machine.execLshc ac a s
  -- Single floating arithmetic: R401-R410 in the modes of R159.
  | .fad ac a => Sys2Proof.Machine.execFad ac a s
  | .fadm ac a => Sys2Proof.Machine.execFadm ac a s
  | .fadb ac a => Sys2Proof.Machine.execFadb ac a s
  | .fadr ac a => Sys2Proof.Machine.execFadr ac a s
  | .fadri ac a => Sys2Proof.Machine.execFadri ac a s
  | .fadrm ac a => Sys2Proof.Machine.execFadrm ac a s
  | .fadrb ac a => Sys2Proof.Machine.execFadrb ac a s
  | .fsb ac a => Sys2Proof.Machine.execFsb ac a s
  | .fsbm ac a => Sys2Proof.Machine.execFsbm ac a s
  | .fsbb ac a => Sys2Proof.Machine.execFsbb ac a s
  | .fsbr ac a => Sys2Proof.Machine.execFsbr ac a s
  | .fsbri ac a => Sys2Proof.Machine.execFsbri ac a s
  | .fsbrm ac a => Sys2Proof.Machine.execFsbrm ac a s
  | .fsbrb ac a => Sys2Proof.Machine.execFsbrb ac a s
  | .fmp ac a => Sys2Proof.Machine.execFmp ac a s
  | .fmpm ac a => Sys2Proof.Machine.execFmpm ac a s
  | .fmpb ac a => Sys2Proof.Machine.execFmpb ac a s
  | .fmpr ac a => Sys2Proof.Machine.execFmpr ac a s
  | .fmpri ac a => Sys2Proof.Machine.execFmpri ac a s
  | .fmprm ac a => Sys2Proof.Machine.execFmprm ac a s
  | .fmprb ac a => Sys2Proof.Machine.execFmprb ac a s
  | .fdv ac a => Sys2Proof.Machine.execFdv ac a s
  | .fdvm ac a => Sys2Proof.Machine.execFdvm ac a s
  | .fdvb ac a => Sys2Proof.Machine.execFdvb ac a s
  | .fdvr ac a => Sys2Proof.Machine.execFdvr ac a s
  | .fdvri ac a => Sys2Proof.Machine.execFdvri ac a s
  | .fdvrm ac a => Sys2Proof.Machine.execFdvrm ac a s
  | .fdvrb ac a => Sys2Proof.Machine.execFdvrb ac a s
  -- Single floating, fixed ports: R411-R416.
  | .ufa ac a => Sys2Proof.Machine.execUfa ac a s
  | .fsc ac a => Sys2Proof.Machine.execFsc ac a s
  | .fix ac a => Sys2Proof.Machine.execFix ac a s
  | .fixr ac a => Sys2Proof.Machine.execFixr ac a s
  | .fltr ac a => Sys2Proof.Machine.execFltr ac a s
  -- Double and G floating arithmetic: R451-R454, R461-R464.
  | .dfad ac a => Sys2Proof.Machine.execDfad ac a s
  | .dfsb ac a => Sys2Proof.Machine.execDfsb ac a s
  | .dfmp ac a => Sys2Proof.Machine.execDfmp ac a s
  | .dfdv ac a => Sys2Proof.Machine.execDfdv ac a s
  | .gfad ac a => Sys2Proof.Machine.execGfad ac a s
  | .gfsb ac a => Sys2Proof.Machine.execGfsb ac a s
  | .gfmp ac a => Sys2Proof.Machine.execGfmp ac a s
  | .gfdv ac a => Sys2Proof.Machine.execGfdv ac a s
  -- The EXTEND form (R152): the accumulator and the E0 fields of the first word, then the ignored AC field and the
  -- operand fields of the extended word. R465-R474.
  | .gsngl ac _ _ a1 => Sys2Proof.Machine.execGsngl ac a1 s
  | .gdble ac _ _ a1 => Sys2Proof.Machine.execGdble ac a1 s
  | .dgfix ac _ _ a1 => Sys2Proof.Machine.execDgfix ac a1 s
  | .gfix ac _ _ a1 => Sys2Proof.Machine.execGfix ac a1 s
  | .dgfixr ac _ _ a1 => Sys2Proof.Machine.execDgfixr ac a1 s
  | .gfixr ac _ _ a1 => Sys2Proof.Machine.execGfixr ac a1 s
  | .dgfltr ac _ _ a1 => Sys2Proof.Machine.execDgfltr ac a1 s
  | .gfltr ac _ _ a1 => Sys2Proof.Machine.execGfltr ac a1 s
  | .gfsc ac _ _ a1 => Sys2Proof.Machine.execGfsc ac a1 s
  -- Byte pointers: R510-R516.
  | .ibp a => Sys2Proof.Machine.execIbp a s
  | .adjbp ac a => Sys2Proof.Machine.execAdjbp ac a s
  | .ildb ac a => Sys2Proof.Machine.execIldb ac a s
  | .ldb ac a => Sys2Proof.Machine.execLdb ac a s
  | .idpb ac a => Sys2Proof.Machine.execIdpb ac a s
  | .dpb ac a => Sys2Proof.Machine.execDpb ac a s

end Sys2Proof.Machine
end

