-- ==== Sys2Proof/Machine/Step.lean ====
section
/-! DEFINITION. One step of the machine (70_reset_and_hazards.md R712): fetch the words of the instruction at the program
counter, halt on HALT, refuse what is no instruction of the core, and run the rest. -/

namespace Sys2Proof.Machine

/-- R712: what is done with the words fetched at the program counter. -/
def runWords (ws : List Word) (s : State) : Host.Outcome State Fault Refusal :=
  if isHaltWords ws then .next (haltRun s)
  else
    match decode ws with
    | .error r => .refused (rejectRefusal r)
    | .ok (i, _) => exec i s

/-- R712, R715: one step. Only a Running machine steps; a Halted one stays as it is (log entry 9), and one that has stopped
as Faulted or Refused gives its reason again (log entry 8). -/
def step (s : State) : Host.Outcome State Fault Refusal :=
  match s.run with
  | .halted => .next s
  | .faulted f => .fault f
  | .refused r => .refused r
  | .running =>
    match fetchWords s with
    | .error f => .fault f
    | .ok ws => runWords ws s

/-- The state with one instruction, its bits `w` numbered as in spec/opcode_table.json, placed where the next step fetches
it (log entries 16 and 17). -/
def State.withFetchWord (s : State) (_nbits w : Nat) : State := placeWords s (tableWords w)

end Sys2Proof.Machine
end

