-- ==== Sys2Proof/Safety.lean ====
section
/-! DEFINITION. What counts as a safe step and a safe run, in the terms claims use. A machine is safe to step where its
step answers a next state: it has not stopped as Faulted (R712), has not been asked for an instruction outside the core
(R156) and is not stuck in an indirection cycle (R711). -/

namespace Sys2Proof.Machine

/-- The step answers a next state. -/
def State.steps (s : State) : Prop := ∃ t, step s = .next t

/-- The first `k` steps answer next states. -/
def State.runs (s : State) (k : Nat) : Prop := ∃ t, Sys2Proof.core.run k s = .next t

/-- R715: Halted is the only final state. -/
def State.final (s : State) : Prop := s.run = .halted

/-- R701: an effective address can be computed and the word at it is written. -/
def State.operandAt (s : State) (a : AddrSpec) (e : Half) (w : Word) : Prop :=
  effAddr s a = .ok e ∧ s.readWord (loc e) = some w

end Sys2Proof.Machine
end

