-- ==== Sys2Proof/Certificates/Slice0/Obligations.lean ====
section
/-! DEFINITION. What is stated of the machine for the provers: one `def Obligations.<Name> : Prop` for each entry of
OBLIGATIONS.json, after the words the statements are written in. Those words follow the spec's formulas on integers, bits
and rationals; they do not call the operations that give an instruction its meaning. A statement about a register, a flag
set or a memory word says the whole next state: what its `ends` does not store, the step leaves as it was. -/

namespace Sys2Proof.Claims

open Sys2Proof.Machine

/-! ## The end of an instruction -/

/-- R712-R714: a next state in which the flags `f` are ORed into the flag register, `store` has stored the results, and the
program counter is one further. -/
def ends (s : State) (f : Flags) (store : State → State) : Out :=
  .next ((store (s.report f)).setPc (s.pc + 1))

/-- Nothing is stored. -/
def nothing (u : State) : State := u

/-- One word to AC. -/
def toAc (ac : AcNum) (w : Word) (u : State) : State := u.setAc ac w

/-- Two words to AC and AC + 1, modulo 16, in that order (R713). -/
def toAcs (ac : AcNum) (r : Word × Word) (u : State) : State := (u.setAc ac r.1).setAc (ac + 1) r.2

/-- Four words to AC to AC + 3, modulo 16, in that order (R713). -/
def toAcs4 (ac : AcNum) (r : (Word × Word) × (Word × Word)) (u : State) : State :=
  toAcs (ac + 2) r.2 (toAcs ac r.1 u)

/-- The address E + 1, modulo 2^18, or modulo 2^30 when EXTENDED (R102, log entry 15). -/
def succAddr (cfg : Params) (e : Half) : MemAddr :=
  BitVec.ofNat 30 (if cfg.extended then e.toNat + 1 else (e.toNat + 1) % 2 ^ 18)

/-- The words at E and E + 1 are written and hold `d`. -/
def pairAt (s : State) (e : Half) (d : Word × Word) : Prop :=
  s.readWord (loc e) = some d.1 ∧ s.readWord (succAddr s.cfg e) = some d.2

/-- The words of AC and AC + 1. -/
def acs2 (s : State) (ac : AcNum) : Word × Word := (s.ac ac, s.ac (ac + 1))

/-- R154: `0,,E`. -/
def zeroLeft (e : Half) : Word := BitVec.ofNat 36 e.toNat

/-- R154: `E,,0`. -/
def zeroRight (e : Half) : Word := BitVec.ofNat 36 (e.toNat * 2 ^ 18)

/-- R158: the memory operand of a mode: the word at E, or the immediate word. -/
def operandIs (m : Mode) (imm : Half → Word) (s : State) (e : Half) (b : Word) : Prop :=
  match m with
  | .immediate => b = imm e
  | .basic => s.readWord (loc e) = some b
  | .memory => s.readWord (loc e) = some b
  | .both => s.readWord (loc e) = some b

/-- R158: where a mode stores one word: AC, AC, E, or E and then AC. -/
def stored (m : Mode) (ac : AcNum) (e : Half) (w : Word) (u : State) : State :=
  match m with
  | .basic => u.setAc ac w
  | .immediate => u.setAc ac w
  | .memory => u.writeWord (loc e) w
  | .both => (u.writeWord (loc e) w).setAc ac w

/-- R160: where a mode stores two words: AC and AC + 1, the first to E only, or the first to E and then both. -/
def storedPair (m : Mode) (ac : AcNum) (e : Half) (r : Word × Word) (u : State) : State :=
  match m with
  | .basic => toAcs ac r u
  | .immediate => toAcs ac r u
  | .memory => u.writeWord (loc e) r.1
  | .both => toAcs ac r (u.writeWord (loc e) r.1)

/-- R161, R162: to E, and also to AC when the AC field is not 0. -/
def toSelf (ac : AcNum) (e : Half) (w : Word) (u : State) : State :=
  if ac = 0 then u.writeWord (loc e) w else (u.writeWord (loc e) w).setAc ac w

/-- R161: the operand of a move mode: the word at E, `0,,E`, the accumulator, or the word at E. -/
def moveOperandIs (m : MoveMode) (s : State) (ac : AcNum) (e : Half) (x : Word) : Prop :=
  match m with
  | .basic => s.readWord (loc e) = some x
  | .immediate => x = zeroLeft e
  | .memory => x = s.ac ac
  | .self => s.readWord (loc e) = some x

/-- R161: where a move mode stores its word. -/
def movedTo (m : MoveMode) (ac : AcNum) (e : Half) (w : Word) (u : State) : State :=
  match m with
  | .basic => u.setAc ac w
  | .immediate => u.setAc ac w
  | .memory => u.writeWord (loc e) w
  | .self => toSelf ac e w u

/-! ## Flag sets -/

/-- A flag set from the four flags that fixed-point rules report; Overflow and Trap1 go together. -/
def fixedFlags (carry0 carry1 overflow : Bool) : Flags := ⟨carry0, carry1, overflow, overflow, false, false, false⟩

/-- R63 OVF. -/
def overflowSet : Flags := fixedFlags false false true

/-- R63 DIVF: {NoDiv, Overflow, Trap1}. -/
def noDivideSet : Flags := ⟨false, false, true, true, false, false, true⟩

/-- R63 FDIVF: {NoDiv, FOV, Overflow, Trap1}. -/
def floatNoDivideSet : Flags := ⟨false, false, true, true, true, false, true⟩

/-- R63 FOVF: {FOV, Overflow, Trap1}. -/
def floatOverflowSet : Flags := ⟨false, false, true, true, true, false, false⟩

/-- R63 FXUF: {FXU, FOV, Overflow, Trap1}. -/
def floatUnderflowSet : Flags := ⟨false, false, true, true, true, true, false⟩

/-- R202: the truth table of addition, over the signs of A, of B and of the result. -/
def addTable (a b r : Bool) : Flags :=
  match a, b, r with
  | false, false, false => fixedFlags false false false
  | false, false, true => fixedFlags false true true
  | false, true, false => fixedFlags true true false
  | false, true, true => fixedFlags false false false
  | true, false, false => fixedFlags true true false
  | true, false, true => fixedFlags false false false
  | true, true, false => fixedFlags true false true
  | true, true, true => fixedFlags true true false

/-- R203: the truth table of subtraction, over the signs of A, of B and of the result. -/
def subTable (a b r : Bool) : Flags :=
  match a, b, r with
  | false, false, false => fixedFlags true true false
  | false, false, true => fixedFlags false false false
  | false, true, false => fixedFlags false false false
  | false, true, true => fixedFlags false true true
  | true, false, false => fixedFlags true false true
  | true, false, true => fixedFlags true true false
  | true, true, false => fixedFlags true true false
  | true, true, true => fixedFlags false false false

/-- R206, R207: what negating the most-negative value reports. -/
def negateOverflow (cfg : Params) : Flags := fixedFlags false cfg.negMaxnegCarry1 true

/-! ## Fixed-point double and quad words -/

/-- R210: the 71-bit signed integer of a double word; the sign bit of LO is no part of it. -/
def value71 (d : Word × Word) : Int := d.1.toInt * 2 ^ 35 + (d.2.toNat % 2 ^ 35 : Nat)

/-- R210: an integer modulo 2^71 as a double word, the sign of LO a copy of the sign of HI. -/
def writeBack71 (v : Int) : Word × Word :=
  let t := (v % 2 ^ 71).toNat
  (BitVec.ofNat 36 (t / 2 ^ 35), BitVec.ofNat 36 (t / 2 ^ 70 * 2 ^ 35 + t % 2 ^ 35))

/-- R255: an integer modulo 2^141 as a quad word, the sign copied into the three low words. -/
def writeBack141 (v : Int) : (Word × Word) × (Word × Word) :=
  let t := (v % 2 ^ 141).toNat
  let sign := t / 2 ^ 140 * 2 ^ 35
  ((BitVec.ofNat 36 (t / 2 ^ 105), BitVec.ofNat 36 (sign + t / 2 ^ 70 % 2 ^ 35)),
   (BitVec.ofNat 36 (sign + t / 2 ^ 35 % 2 ^ 35), BitVec.ofNat 36 (sign + t % 2 ^ 35)))

/-- R258: the 141-bit signed integer of AC to AC + 3; the sign bits of the three low words are no part of it. -/
def value141 (s : State) (ac : AcNum) : Int :=
  (s.ac ac).toInt * 2 ^ 105 + ((s.ac (ac + 1)).toNat % 2 ^ 35 : Nat) * 2 ^ 70 +
    ((s.ac (ac + 2)).toNat % 2 ^ 35 : Nat) * 2 ^ 35 + ((s.ac (ac + 3)).toNat % 2 ^ 35 : Nat)

/-- R251: `q` and `r` are the quotient truncated toward zero and the remainder, which has the sign of the dividend or is 0. -/
def IsQuotient (n d q r : Int) : Prop := n = q * d + r ∧ |r| < |d| ∧ (r = 0 ∨ (0 < r ↔ 0 < n))

/-! ## Shift counts -/

/-- R320: the count of E: bit 17 is its sign and bits 7:0 its low bits, -256 to 255. -/
def shiftCount (e : Half) : Int := (e.toNat % 256 : Nat) - (if e.getLsbD 17 then 256 else 0)

/-! ## Conditions of R162 and R714 -/

/-- R162: AOJ and SOJ, each with its condition on the signed result. -/
def aojRows : List (BasicMaker × (Int → Bool)) :=
  [(.aoj, fun _ => false), (.aojl, fun v => v < 0), (.aoje, fun v => v = 0), (.aojle, fun v => v ≤ 0),
   (.aoja, fun _ => true), (.aojge, fun v => v ≥ 0), (.aojn, fun v => v ≠ 0), (.aojg, fun v => v > 0)]

/-- R162: SOJ. -/
def sojRows : List (BasicMaker × (Int → Bool)) :=
  [(.soj, fun _ => false), (.sojl, fun v => v < 0), (.soje, fun v => v = 0), (.sojle, fun v => v ≤ 0),
   (.soja, fun _ => true), (.sojge, fun v => v ≥ 0), (.sojn, fun v => v ≠ 0), (.sojg, fun v => v > 0)]

/-- R162: AOS. -/
def aosRows : List (BasicMaker × (Int → Bool)) :=
  [(.aos, fun _ => false), (.aosl, fun v => v < 0), (.aose, fun v => v = 0), (.aosle, fun v => v ≤ 0),
   (.aosa, fun _ => true), (.aosge, fun v => v ≥ 0), (.aosn, fun v => v ≠ 0), (.aosg, fun v => v > 0)]

/-- R162: SOS. -/
def sosRows : List (BasicMaker × (Int → Bool)) :=
  [(.sos, fun _ => false), (.sosl, fun v => v < 0), (.sose, fun v => v = 0), (.sosle, fun v => v ≤ 0),
   (.sosa, fun _ => true), (.sosge, fun v => v ≥ 0), (.sosn, fun v => v ≠ 0), (.sosg, fun v => v > 0)]

/-- R162, R714: the instruction stores `r` to AC and jumps to E where its condition holds. -/
def Jumps (row : BasicMaker × (Int → Bool)) (r : Word → Word) (f : Word → Flags) : Prop :=
  ∀ ac a s e, effAddr s a = .ok e →
    exec (row.1 ac a) s =
      .next (((s.report (f (s.ac ac))).setAc ac (r (s.ac ac))).setPc
        (if row.2 (r (s.ac ac)).toInt then e else s.pc + 1))

/-- R162, R714: the instruction stores `r` to E, and to AC when the AC field is not 0, and skips where its condition holds. -/
def Skips (row : BasicMaker × (Int → Bool)) (r : Word → Word) (f : Word → Flags) : Prop :=
  ∀ ac a s e x, effAddr s a = .ok e → s.readWord (loc e) = some x →
    exec (row.1 ac a) s =
      .next ((toSelf ac e (r x) (s.report (f x))).setPc (if row.2 (r x).toInt then s.pc + 2 else s.pc + 1))

/-! ## Boolean functions -/

/-- R153 table 5: the functions 0 to 3 in their four modes. -/
def booleanGroup0 : List (Nat × Mode × BasicMaker) :=
  [(0, .basic, .setz), (0, .immediate, .setzi), (0, .memory, .setzm), (0, .both, .setzb),
   (1, .basic, .and), (1, .immediate, .andi), (1, .memory, .andm), (1, .both, .andb),
   (2, .basic, .andca), (2, .immediate, .andcai), (2, .memory, .andcam), (2, .both, .andcab),
   (3, .basic, .setm), (3, .immediate, .setmi), (3, .memory, .setmm), (3, .both, .setmb)]

/-- R153 table 5: the functions 4 to 7 in their four modes. -/
def booleanGroup4 : List (Nat × Mode × BasicMaker) :=
  [(4, .basic, .andcm), (4, .immediate, .andcmi), (4, .memory, .andcmm), (4, .both, .andcmb),
   (5, .basic, .seta), (5, .immediate, .setai), (5, .memory, .setam), (5, .both, .setab),
   (6, .basic, .xor), (6, .immediate, .xori), (6, .memory, .xorm), (6, .both, .xorb),
   (7, .basic, .ior), (7, .immediate, .iori), (7, .memory, .iorm), (7, .both, .iorb)]

/-- R153 table 5: the functions 8 to 11 in their four modes. -/
def booleanGroup8 : List (Nat × Mode × BasicMaker) :=
  [(8, .basic, .andcb), (8, .immediate, .andcbi), (8, .memory, .andcbm), (8, .both, .andcbb),
   (9, .basic, .eqv), (9, .immediate, .eqvi), (9, .memory, .eqvm), (9, .both, .eqvb),
   (10, .basic, .setca), (10, .immediate, .setcai), (10, .memory, .setcam), (10, .both, .setcab),
   (11, .basic, .orca), (11, .immediate, .orcai), (11, .memory, .orcam), (11, .both, .orcab)]

/-- R153 table 5: the functions 12 to 15 in their four modes. -/
def booleanGroup12 : List (Nat × Mode × BasicMaker) :=
  [(12, .basic, .setcm), (12, .immediate, .setcmi), (12, .memory, .setcmm), (12, .both, .setcmb),
   (13, .basic, .orcm), (13, .immediate, .orcmi), (13, .memory, .orcmm), (13, .both, .orcmb),
   (14, .basic, .orcb), (14, .immediate, .orcbi), (14, .memory, .orcbm), (14, .both, .orcbb),
   (15, .basic, .seto), (15, .immediate, .setoi), (15, .memory, .setom), (15, .both, .setob)]

/-- R153 table 5: every boolean instruction with its function number and mode. -/
def booleanTable : List (Nat × Mode × BasicMaker) := booleanGroup0 ++ booleanGroup4 ++ booleanGroup8 ++ booleanGroup12

/-- R300: bit i of the result is bit (1 - a[i]) + 2 * (1 - b[i]) of the function number. -/
def IsBoolean (f : Nat) (a b r : Word) : Prop :=
  ∀ i < 36, r.getLsbD i = f.testBit ((1 - (a.getLsbD i).toNat) + 2 * (1 - (b.getLsbD i).toNat))

/-! ## Floating values -/

/-- R356: the rational a floating operand denotes. -/
def value (φ : Fmt) (w : Word × Word) : ℚ := (unpack φ w).2 * (2 : ℚ) ^ ((unpack φ w).1 - φ.bias - φ.n)

/-- R356: the rational an F word denotes. -/
def valueF (w : Word) : ℚ := value .f (w, 0)

/-- R360-R362: the exponent E and fraction F of a nonzero result: the fraction is scaled to [2^(N-1), 2^N) in magnitude,
its floor or the floor of it plus one half is taken, and a fraction that has left the range is renormalized. -/
def IsRounded (φ : Fmt) (q : ℚ) (rnd : Bool) (e f : Int) : Prop :=
  ∃ e0 : Int, (2 : ℚ) ^ (φ.n - 1) ≤ |q * 2 ^ ((φ.n : Int) + φ.bias - e0)| ∧
    |q * 2 ^ ((φ.n : Int) + φ.bias - e0)| < 2 ^ φ.n ∧
    let f0 := ⌊q * 2 ^ ((φ.n : Int) + φ.bias - e0) + (if rnd then 1 / 2 else 0)⌋
    if f0 = 2 ^ φ.n then e = e0 + 1 ∧ f = 2 ^ (φ.n - 1)
    else if f0 = -2 ^ φ.n then e = e0 + 1 ∧ f = -2 ^ (φ.n - 1)
    else e = e0 ∧ f = f0

/-- R365: the words whose sign, exponent field and fraction fields are those of E and F; the sign bit of word 1 is 0. -/
def IsPacked (φ : Fmt) (e f : Int) (w : Word × Word) : Prop :=
  w.1.msb = decide (f < 0) ∧
  (w.1.toNat / 2 ^ φ.k % 2 ^ φ.ew : Nat) = (if f < 0 then 2 ^ φ.ew - 1 - e % 2 ^ φ.ew else e % 2 ^ φ.ew) ∧
  (w.1.toNat % 2 ^ φ.k * 2 ^ φ.k1 + w.2.toNat : Nat) = f % 2 ^ φ.n ∧
  w.2.toNat < 2 ^ φ.k1

/-- R366: the flags of a final exponent. -/
def exponentFlags (φ : Fmt) (e : Int) : Flags :=
  if (φ.emax : Int) < e then floatOverflowSet else if e < 0 then floatUnderflowSet else .none

/-- R364-R367: FRES; `w` and `f` are the result words and the flags of the exact result `q`. -/
def IsResult (φ : Fmt) (q : ℚ) (rnd : Bool) (w : Word × Word) (f : Flags) : Prop :=
  if q = 0 then w = (0, 0) ∧ f = .none
  else ∃ e fr : Int, IsRounded φ q rnd e fr ∧ IsPacked φ e fr w ∧ f = exponentFlags φ e

/-- R367: FRES of an F result, one word. -/
def IsResultF (q : ℚ) (rnd : Bool) (w : Word) (f : Flags) : Prop := IsResult .f q rnd (w, 0) f

/-- R408, R450: the no-divide test of the floating divides. -/
def FloatNoDivide (φ : Fmt) (a b : Word × Word) : Prop :=
  (unpack φ b).2 = 0 ∨ 2 * |(unpack φ b).2| ≤ |(unpack φ a).2|

/-- R14: a rational truncated toward zero. -/
def truncated (q : ℚ) : Int := if 0 ≤ q then ⌊q⌋ else ⌈q⌉

/-- R414, R467: a rational rounded half up. -/
def roundedHalfUp (q : ℚ) : Int := ⌊q + 1 / 2⌋

/-! ## Byte pointers -/

/-- R504: the one-word-global codes: code, P, S. -/
def owgTable : List (Nat × Nat × Nat) :=
  [(0o45, 36, 6), (0o46, 30, 6), (0o47, 24, 6), (0o50, 18, 6), (0o51, 12, 6), (0o52, 6, 6), (0o53, 0, 6),
   (0o54, 36, 8), (0o55, 28, 8), (0o56, 20, 8), (0o57, 12, 8), (0o60, 4, 8)] ++
  [(0o61, 36, 7), (0o62, 29, 7), (0o63, 22, 7), (0o64, 15, 7), (0o65, 8, 7), (0o66, 1, 7),
   (0o67, 36, 9), (0o70, 27, 9), (0o71, 18, 9), (0o72, 9, 9), (0o73, 0, 9),
   (0o74, 36, 18), (0o75, 18, 18), (0o76, 0, 18)]

/-- Bits hi:lo of a word as a number, given its lowest bit and its width. -/
def field (w : Word) (lo width : Nat) : Nat := w.toNat / 2 ^ lo % 2 ^ width

/-- A pointer is used: its first word is at E, it decodes to `bp`, and BP_TRAP does not hold of it. -/
def PointerAt (s : State) (e : Half) (w0 : Word) (bp : Bp) : Prop :=
  s.readWord (loc e) = some w0 ∧ canon s.cfg w0 (secondWord s e) = .ok bp ∧ bpTraps s.cfg.bpTrap bp = false

/-- R510: `b` is the byte of S bits at position P of a word; a byte past bit 35 is cut there. -/
def IsByte (w : Word) (p sz : Nat) (b : Word) : Prop :=
  ∀ i < 36, b.getLsbD i = (decide (i < sz) && w.getLsbD (p + i))

/-- R511: `w'` is the word `w` with the byte of S bits at position P replaced by the low bits of `b`. -/
def IsDeposit (w b : Word) (p sz : Nat) (w' : Word) : Prop :=
  ∀ i < 36, w'.getLsbD i = if p ≤ i ∧ i < p + sz then b.getLsbD (i - p) else w.getLsbD i

/-- R512: the address field of a pointer moved by `q` words, in 18 bits for a local pointer and in 30 for a global one. -/
def movedY (bp : Bp) (q : Int) : MemAddr :=
  match bp.form with
  | .owl => BitVec.ofInt 30 ((bp.y.toNat + q) % 2 ^ 18)
  | .twl => BitVec.ofInt 30 ((bp.y.toNat + q) % 2 ^ 18)
  | .owg => BitVec.ofInt 30 ((bp.y.toNat + q) % 2 ^ 30)
  | .twg => BitVec.ofInt 30 ((bp.y.toNat + q) % 2 ^ 30)
  | .owgBad => bp.y
  | .twBad => bp.y

/-- R512: the canonical form of the pointer to the next byte. -/
def incremented (bp : Bp) : Bp :=
  if bp.s ≤ bp.p then { bp with p := bp.p - bp.s }
  else { bp with p := ((36 - (bp.s : Int)) % 64).toNat, y := movedY bp 1 }

/-- R504, R509: the position field that stands for P in a pointer's own form. -/
def IsPosition (bp : Bp) (p : Nat) (pf : Nat) : Prop :=
  match bp.form with
  | .owg => (pf, p, bp.s) ∈ owgTable
  | .owl => pf = p
  | .twl => pf = p
  | .twg => pf = p
  | .owgBad => False
  | .twBad => False

/-- R509: only the position field and the address field of a pointer change; `v0` and `v1` are its words written back with
the position field `pf` and the address `y`. -/
def IsWrittenBack (bp : Bp) (pf : Nat) (y : MemAddr) (w0 w1 v0 : Word) (v1 : Option Word) : Prop :=
  field v0 30 6 = pf ∧
  match bp.form with
  | .owl => field v0 18 12 = field w0 18 12 ∧ field v0 0 18 = y.toNat % 2 ^ 18 ∧ v1 = none
  | .owg => field v0 0 30 = y.toNat ∧ v1 = none
  | .twl => field v0 0 30 = field w0 0 30 ∧
      ∃ v, v1 = some v ∧ field v 18 18 = field w1 18 18 ∧ field v 0 18 = y.toNat % 2 ^ 18
  | .twg => field v0 0 30 = field w0 0 30 ∧
      ∃ v, v1 = some v ∧ field v 30 6 = field w1 30 6 ∧ field v 0 30 = y.toNat
  | .owgBad => False
  | .twBad => False

/-- The second word of a pointer is `w1` wherever it has one. -/
def secondIs (s : State) (e : Half) (w1 : Word) : Prop :=
  ∀ w, s.readWord (succAddr s.cfg e) = some w → w1 = w

/-- R500: the words of a pointer to E, and to E + 1 where there are two. -/
def pointerTo (e : Half) (v0 : Word) (v1 : Option Word) (u : State) : State :=
  match v1 with
  | none => u.writeWord (loc e) v0
  | some v => (u.writeWord (loc e) v0).writeWord (succAddr u.cfg e) v

/-- R500: the words of a pointer to AC, and to AC + 1 where there are two. -/
def pointerToAc (ac : AcNum) (v0 : Word) (v1 : Option Word) (u : State) : State :=
  match v1 with
  | none => u.setAc ac v0
  | some v => (u.setAc ac v0).setAc (ac + 1) v

/-- R500: the byte instructions. -/
def byteInstrs (ac : AcNum) (a : AddrSpec) : List Instr := [.ldb ac a, .dpb ac a, .ibp a, .ildb ac a, .idpb ac a, .adjbp ac a]

/-- R511, R514: the two instructions that write the byte, each with the pointer it writes it through. -/
def depositInstrs (ac : AcNum) (a : AddrSpec) (bp : Bp) : List (Instr × Bp) := [(.dpb ac a, bp), (.idpb ac a, incremented bp)]

/-- R510-R514: the four instructions that reach the byte, each with the pointer it reaches it through. -/
def reachingInstrs (ac : AcNum) (a : AddrSpec) (bp : Bp) : List (Instr × Bp) :=
  [(.ldb ac a, bp), (.dpb ac a, bp), (.ildb ac a, incremented bp), (.idpb ac a, incremented bp)]
/-! ## Frames: what each instruction may store to (R158-R163, R500, R713) -/

/-- The address of the words at E, and at E + 1 where `n` is 2. -/
def wordsAt (s : State) (a : AddrSpec) (n : Nat) : List MemAddr :=
  match effAddr s a with
  | .ok e => if n = 2 then [loc e, succAddr s.cfg e] else [loc e]
  | .error _ => []

/-- The canonical form of the byte pointer an instruction names, where it has one. -/
def pointerOf (s : State) (a : AddrSpec) : Option Bp :=
  match effAddr s a with
  | .error _ => none
  | .ok e =>
    match s.readWord (loc e) with
    | none => none
    | some w0 => (canon s.cfg w0 (secondWord s e)).toOption

/-- How many words the byte pointer an instruction names has. -/
def pointerWords (s : State) (a : AddrSpec) : Nat :=
  match pointerOf s a with
  | some bp => if bp.form = .twl ∨ bp.form = .twg then 2 else 1
  | none => 1

/-- R508: the address of the byte a pointer names, read through `f` of its canonical form. -/
def byteWordAt (s : State) (a : AddrSpec) (f : Bp → Bp) : List MemAddr :=
  match pointerOf s a with
  | none => []
  | some bp =>
    match byteAddr s (f bp) with
    | .ok x => [x]
    | .error _ => []

/-- The accumulators an instruction may store to. -/
def acDests (i : Instr) (s : State) : List AcNum :=
  match i with
  | .add ac _ | .addi ac _ | .sub ac _ | .subi ac _ | .imul ac _ | .imuli ac _ | .fadr ac _ | .fadri ac _
  | .fsbr ac _ | .fsbri ac _ | .fmpr ac _ | .fmpri ac _ | .fdvr ac _ | .fdvri ac _ | .setz ac _ | .setzi ac _
  | .and ac _ | .andi ac _ | .andca ac _ | .andcai ac _ | .setm ac _ | .setmi ac _ | .andcm ac _ | .andcmi ac _
  | .seta ac _ | .setai ac _ | .xor ac _ | .xori ac _ | .ior ac _ | .iori ac _ | .andcb ac _ | .andcbi ac _
  | .eqv ac _ | .eqvi ac _ | .setca ac _ | .setcai ac _ | .orca ac _ | .orcai ac _ | .setcm ac _ | .setcmi ac _
  | .orcm ac _ | .orcmi ac _ | .orcb ac _ | .orcbi ac _ | .seto ac _ | .setoi ac _ | .fad ac _ | .fsb ac _
  | .fmp ac _ | .fdv ac _ | .movn ac _ | .movni ac _ | .movm ac _ | .movmi ac _ | .aoj ac _ | .aojl ac _ | .aoje ac _
  | .aojle ac _ | .aoja ac _ | .aojge ac _ | .aojn ac _ | .aojg ac _ | .soj ac _ | .sojl ac _ | .soje ac _
  | .sojle ac _ | .soja ac _ | .sojge ac _ | .sojn ac _ | .sojg ac _ | .ash ac _ | .rot ac _ | .lsh ac _ | .fsc ac _
  | .fix ac _ | .fixr ac _ | .fltr ac _ | .ldb ac _ | .ildb ac _ => [ac]
  | .addb ac _ | .subb ac _ | .imulb ac _ | .fadrb ac _ | .fsbrb ac _ | .fmprb ac _ | .fdvrb ac _ | .setzb ac _
  | .andb ac _ | .andcab ac _ | .setmb ac _ | .andcmb ac _ | .setab ac _ | .xorb ac _ | .iorb ac _ | .andcbb ac _
  | .eqvb ac _ | .setcab ac _ | .orcab ac _ | .setcmb ac _ | .orcmb ac _ | .orcbb ac _ | .setob ac _ | .fadb ac _
  | .fsbb ac _ | .fmpb ac _ | .fdvb ac _ => [ac]
  | .mul ac _ | .muli ac _ | .idiv ac _ | .idivi ac _ | .div ac _ | .divi ac _ | .dadd ac _ | .dsub ac _
  | .dmovn ac _ | .ashc ac _ | .rotc ac _ | .lshc ac _ | .dfad ac _ | .dfsb ac _ | .dfmp ac _ | .dfdv ac _
  | .gfad ac _ | .gfsb ac _ | .gfmp ac _ | .gfdv ac _ => [ac, ac + 1]
  | .mulb ac _ | .idivb ac _ | .divb ac _ => [ac, ac + 1]
  | .dmul ac _ | .ddiv ac _ => [ac, ac + 1, ac + 2, ac + 3]
  | .movns ac _ | .movms ac _ | .aos ac _ | .aosl ac _ | .aose ac _ | .aosle ac _ | .aosa ac _ | .aosge ac _
  | .aosn ac _ | .aosg ac _ | .sos ac _ | .sosl ac _ | .sose ac _ | .sosle ac _ | .sosa ac _ | .sosge ac _
  | .sosn ac _ | .sosg ac _ => if ac = 0 then [] else [ac]
  | .gsngl ac _ _ _ | .gfix ac _ _ _ | .gfixr ac _ _ _ => [ac]
  | .dgfix ac _ _ _ | .dgfixr ac _ _ _ | .gdble ac _ _ _ | .gfltr ac _ _ _ | .dgfltr ac _ _ _ | .gfsc ac _ _ _ => [ac, ac + 1]
  | .ufa ac _ => [ac + 1]
  | .adjbp ac a => if pointerWords s a = 2 then [ac, ac + 1] else [ac]
  | .addm _ _ | .subm _ _ | .imulm _ _ | .fadrm _ _ | .fsbrm _ _ | .fmprm _ _ | .fdvrm _ _ | .setzm _ _ | .andm _ _
  | .andcam _ _ | .setmm _ _ | .andcmm _ _ | .setam _ _ | .xorm _ _ | .iorm _ _ | .andcbm _ _ | .eqvm _ _
  | .setcam _ _ | .orcam _ _ | .setcmm _ _ | .orcmm _ _ | .orcbm _ _ | .setom _ _ | .fadm _ _ | .fsbm _ _ | .fmpm _ _
  | .fdvm _ _ | .mulm _ _ | .idivm _ _ | .divm _ _ | .movnm _ _ | .movmm _ _ => []
  | .dmovnm _ _ | .dpb _ _ | .idpb _ _ => []
  | .ibp _ => []

/-- The memory words an instruction may store to. -/
def memDests (i : Instr) (s : State) : List MemAddr :=
  match i with
  | .addm _ a | .subm _ a | .imulm _ a | .fadrm _ a | .fsbrm _ a | .fmprm _ a | .fdvrm _ a | .setzm _ a | .andm _ a
  | .andcam _ a | .setmm _ a | .andcmm _ a | .setam _ a | .xorm _ a | .iorm _ a | .andcbm _ a | .eqvm _ a
  | .setcam _ a | .orcam _ a | .setcmm _ a | .orcmm _ a | .orcbm _ a | .setom _ a | .fadm _ a | .fsbm _ a | .fmpm _ a
  | .fdvm _ a | .mulm _ a | .idivm _ a | .divm _ a | .movnm _ a | .movmm _ a => wordsAt s a 1
  | .addb _ a | .subb _ a | .imulb _ a | .fadrb _ a | .fsbrb _ a | .fmprb _ a | .fdvrb _ a | .setzb _ a | .andb _ a
  | .andcab _ a | .setmb _ a | .andcmb _ a | .setab _ a | .xorb _ a | .iorb _ a | .andcbb _ a | .eqvb _ a
  | .setcab _ a | .orcab _ a | .setcmb _ a | .orcmb _ a | .orcbb _ a | .setob _ a | .fadb _ a | .fsbb _ a | .fmpb _ a
  | .fdvb _ a => wordsAt s a 1
  | .mulb _ a | .idivb _ a | .divb _ a => wordsAt s a 1
  | .movns _ a | .movms _ a | .aos _ a | .aosl _ a | .aose _ a | .aosle _ a | .aosa _ a | .aosge _ a | .aosn _ a
  | .aosg _ a | .sos _ a | .sosl _ a | .sose _ a | .sosle _ a | .sosa _ a | .sosge _ a | .sosn _ a | .sosg _ a => wordsAt s a 1
  | .dmovnm _ a => wordsAt s a 2
  | .ibp a | .ildb _ a => wordsAt s a (pointerWords s a)
  | .dpb _ a => byteWordAt s a id
  | .idpb _ a => byteWordAt s a incremented ++ wordsAt s a (pointerWords s a)
  | .add _ _ | .addi _ _ | .sub _ _ | .subi _ _ | .imul _ _ | .imuli _ _ | .fadr _ _ | .fadri _ _ | .fsbr _ _
  | .fsbri _ _ | .fmpr _ _ | .fmpri _ _ | .fdvr _ _ | .fdvri _ _ | .setz _ _ | .setzi _ _ | .and _ _ | .andi _ _
  | .andca _ _ | .andcai _ _ | .setm _ _ | .setmi _ _ | .andcm _ _ | .andcmi _ _ | .seta _ _ | .setai _ _ | .xor _ _
  | .xori _ _ | .ior _ _ | .iori _ _ | .andcb _ _ | .andcbi _ _ | .eqv _ _ | .eqvi _ _ | .setca _ _ | .setcai _ _
  | .orca _ _ | .orcai _ _ | .setcm _ _ | .setcmi _ _ | .orcm _ _ | .orcmi _ _ | .orcb _ _ | .orcbi _ _ | .seto _ _
  | .setoi _ _ | .fad _ _ | .fsb _ _ | .fmp _ _ | .fdv _ _ | .movn _ _ | .movni _ _ | .movm _ _ | .movmi _ _
  | .aoj _ _ | .aojl _ _ | .aoje _ _ | .aojle _ _ | .aoja _ _ | .aojge _ _ | .aojn _ _ | .aojg _ _ | .soj _ _
  | .sojl _ _ | .soje _ _ | .sojle _ _ | .soja _ _ | .sojge _ _ | .sojn _ _ | .sojg _ _ | .ash _ _ | .rot _ _
  | .lsh _ _ | .fsc _ _ | .fix _ _ | .fixr _ _ | .fltr _ _ | .ldb _ _ => []
  | .mul _ _ | .muli _ _ | .idiv _ _ | .idivi _ _ | .div _ _ | .divi _ _ | .dadd _ _ | .dsub _ _ | .dmovn _ _
  | .ashc _ _ | .rotc _ _ | .lshc _ _ | .dfad _ _ | .dfsb _ _ | .dfmp _ _ | .dfdv _ _ | .gfad _ _ | .gfsb _ _
  | .gfmp _ _ | .gfdv _ _ => []
  | .dmul _ _ | .ddiv _ _ => []
  | .ufa _ _ | .adjbp _ _ => []
  | .gsngl _ _ _ _ | .gfix _ _ _ _ | .gfixr _ _ _ _ | .dgfix _ _ _ _ | .dgfixr _ _ _ _ | .gdble _ _ _ _
  | .gfltr _ _ _ _ | .dgfltr _ _ _ _ | .gfsc _ _ _ _ => []

/-- R602, R603: the flags an instruction may report. -/
def mayReport (i : Instr) : Flags :=
  match i with
  | .add _ _ | .addi _ _ | .addm _ _ | .addb _ _ | .sub _ _ | .subi _ _ | .subm _ _ | .subb _ _ | .movn _ _
  | .movni _ _ | .movnm _ _ | .movns _ _ | .aoj _ _ | .aojl _ _ | .aoje _ _ | .aojle _ _ | .aoja _ _ | .aojge _ _
  | .aojn _ _ | .aojg _ _ | .aos _ _ | .aosl _ _ | .aose _ _ | .aosle _ _ | .aosa _ _ | .aosge _ _ | .aosn _ _
  | .aosg _ _ | .soj _ _ | .sojl _ _ | .soje _ _ | .sojle _ _ | .soja _ _ | .sojge _ _ | .sojn _ _ | .sojg _ _
  | .sos _ _ | .sosl _ _ | .sose _ _ | .sosle _ _ | .sosa _ _ | .sosge _ _ | .sosn _ _ | .sosg _ _ | .dadd _ _
  | .dsub _ _ | .dmovn _ _ | .dmovnm _ _ => fixedFlags true true true
  | .movm _ _ | .movmm _ _ | .movms _ _ => fixedFlags false true true
  | .imul _ _ | .imuli _ _ | .imulm _ _ | .imulb _ _ | .mul _ _ | .muli _ _ | .mulm _ _ | .mulb _ _ | .dmul _ _
  | .ash _ _ | .ashc _ _ | .fix _ _ | .fixr _ _ => overflowSet
  | .gfix _ _ _ _ | .gfixr _ _ _ _ | .dgfix _ _ _ _ | .dgfixr _ _ _ _ => overflowSet
  | .idiv _ _ | .idivi _ _ | .idivm _ _ | .idivb _ _ | .div _ _ | .divi _ _ | .divm _ _ | .divb _ _ | .ddiv _ _
  | .adjbp _ _ => noDivideSet
  | .fad _ _ | .fadm _ _ | .fadb _ _ | .fsb _ _ | .fsbm _ _ | .fsbb _ _ | .fmp _ _ | .fmpm _ _ | .fmpb _ _
  | .fadr _ _ | .fadri _ _ | .fadrm _ _ | .fadrb _ _ | .fsbr _ _ | .fsbri _ _ | .fsbrm _ _ | .fsbrb _ _ | .fmpr _ _
  | .fmpri _ _ | .fmprm _ _ | .fmprb _ _ | .fsc _ _ | .dfad _ _ | .dfsb _ _ | .dfmp _ _ | .gfad _ _ | .gfsb _ _
  | .gfmp _ _ => floatUnderflowSet
  | .gsngl _ _ _ _ | .gfsc _ _ _ _ => floatUnderflowSet
  | .fdv _ _ | .fdvm _ _ | .fdvb _ _ | .fdvr _ _ | .fdvri _ _ | .fdvrm _ _ | .fdvrb _ _ | .dfdv _ _ | .gfdv _ _ => floatUnderflowSet.union floatNoDivideSet
  | .ufa _ _ => floatOverflowSet
  | .movmi _ _ | .setz _ _ | .setzi _ _ | .setzm _ _ | .setzb _ _ | .and _ _ | .andi _ _ | .andm _ _ | .andb _ _
  | .andca _ _ | .andcai _ _ | .andcam _ _ | .andcab _ _ | .setm _ _ | .setmi _ _ | .setmm _ _ | .setmb _ _
  | .andcm _ _ | .andcmi _ _ | .andcmm _ _ | .andcmb _ _ | .seta _ _ | .setai _ _ | .setam _ _ | .setab _ _
  | .xor _ _ | .xori _ _ | .xorm _ _ | .xorb _ _ | .ior _ _ | .iori _ _ | .iorm _ _ | .iorb _ _ | .andcb _ _
  | .andcbi _ _ | .andcbm _ _ | .andcbb _ _ | .eqv _ _ | .eqvi _ _ | .eqvm _ _ | .eqvb _ _ | .setca _ _ | .setcai _ _
  | .setcam _ _ | .setcab _ _ | .orca _ _ | .orcai _ _ | .orcam _ _ | .orcab _ _ | .setcm _ _ | .setcmi _ _
  | .setcmm _ _ | .setcmb _ _ | .orcm _ _ | .orcmi _ _ | .orcmm _ _ | .orcmb _ _ | .orcb _ _ | .orcbi _ _
  | .orcbm _ _ | .orcbb _ _ | .seto _ _ | .setoi _ _ | .setom _ _ | .setob _ _ | .rot _ _ | .lsh _ _ | .rotc _ _
  | .lshc _ _ | .fltr _ _ | .ldb _ _ | .dpb _ _ | .ildb _ _ | .idpb _ _ => .none
  | .gfltr _ _ _ _ | .dgfltr _ _ _ _ | .gdble _ _ _ _ => .none
  | .ibp _ => .none

/-- R153: the opcodes of the basic format the map lists. -/
def coreOpcode (op : Nat) : Prop :=
  op ∈ [0o102, 0o103, 0o106, 0o107, 0o121, 0o122, 0o123, 0o125, 0o126, 0o127, 0o130, 0o132] ∨
  (0o110 ≤ op ∧ op ≤ 0o117) ∨ (0o133 ≤ op ∧ op ≤ 0o140) ∨ (0o142 ≤ op ∧ op ≤ 0o150) ∨ (0o152 ≤ op ∧ op ≤ 0o160) ∨
  (0o162 ≤ op ∧ op ≤ 0o170) ∨ (0o172 ≤ op ∧ op ≤ 0o177) ∨ (0o210 ≤ op ∧ op ≤ 0o242) ∨
  (0o244 ≤ op ∧ op ≤ 0o246) ∨ (0o270 ≤ op ∧ op ≤ 0o277) ∨ (0o340 ≤ op ∧ op ≤ 0o377) ∨ (0o400 ≤ op ∧ op ≤ 0o477)

/-- R156, R460: the instructions of the G format, which need HAS_GFLOAT. -/
def needsGfloat (i : Instr) : Bool :=
  match i with
  | .gfad _ _ | .gfsb _ _ | .gfmp _ _ | .gfdv _ _ => true
  | .gsngl _ _ _ _ | .gfix _ _ _ _ | .gfixr _ _ _ _ | .dgfix _ _ _ _ | .dgfixr _ _ _ _ | .gdble _ _ _ _
  | .gfltr _ _ _ _ | .dgfltr _ _ _ _ | .gfsc _ _ _ _ => true
  | _ => false

/-- R158-R163: where an instruction fills M[0] from C(E), the address fields of E. -/
def readsWordAt (i : Instr) : Option AddrSpec :=
  match i with
  | .add _ a | .addm _ a | .addb _ a | .sub _ a | .subm _ a | .subb _ a | .imul _ a | .imulm _ a | .imulb _ a
  | .mul _ a | .mulm _ a | .mulb _ a | .idiv _ a | .idivm _ a | .idivb _ a | .div _ a | .divm _ a | .divb _ a
  | .fad _ a | .fadm _ a | .fadb _ a | .fsb _ a | .fsbm _ a | .fsbb _ a | .fmp _ a | .fmpm _ a | .fmpb _ a
  | .fadr _ a | .fadrm _ a | .fadrb _ a | .fsbr _ a | .fsbrm _ a | .fsbrb _ a | .fmpr _ a | .fmprm _ a | .fmprb _ a
  | .fdv _ a | .fdvm _ a | .fdvb _ a | .fdvr _ a | .fdvrm _ a | .fdvrb _ a | .setz _ a | .setzm _ a | .setzb _ a
  | .and _ a | .andm _ a | .andb _ a | .andca _ a | .andcam _ a | .andcab _ a | .setm _ a | .setmm _ a | .setmb _ a
  | .andcm _ a | .andcmm _ a | .andcmb _ a | .seta _ a | .setam _ a | .setab _ a | .xor _ a | .xorm _ a | .xorb _ a
  | .ior _ a | .iorm _ a | .iorb _ a | .andcb _ a | .andcbm _ a | .andcbb _ a | .eqv _ a | .eqvm _ a | .eqvb _ a
  | .setca _ a | .setcam _ a | .setcab _ a | .orca _ a | .orcam _ a | .orcab _ a | .setcm _ a | .setcmm _ a
  | .setcmb _ a | .orcm _ a | .orcmm _ a | .orcmb _ a | .orcb _ a | .orcbm _ a | .orcbb _ a | .seto _ a | .setom _ a
  | .setob _ a | .movn _ a | .movns _ a | .movm _ a | .movms _ a | .aos _ a | .aosl _ a | .aose _ a | .aosle _ a
  | .aosa _ a | .aosge _ a | .aosn _ a | .aosg _ a | .sos _ a | .sosl _ a | .sose _ a | .sosle _ a | .sosa _ a
  | .sosge _ a | .sosn _ a | .sosg _ a | .ufa _ a | .fix _ a | .fixr _ a | .fltr _ a | .ldb _ a | .dpb _ a
  | .ildb _ a | .idpb _ a | .adjbp _ a => some a
  | .ibp a => some a
  | .gdble _ _ _ a | .gfltr _ _ _ a => some a
  | _ => none

/-- R163: where an instruction fills M[0..1] from C(E), C(E+1), the address fields of E. -/
def readsPairAt (i : Instr) : Option AddrSpec :=
  match i with
  | .dadd _ a | .dsub _ a | .dmul _ a | .ddiv _ a | .dmovn _ a | .dfad _ a | .dfsb _ a | .dfmp _ a | .dfdv _ a
  | .gfad _ a | .gfsb _ a | .gfmp _ a | .gfdv _ a => some a
  | .gsngl _ _ _ a | .gfix _ _ _ a | .gfixr _ _ _ a | .dgfix _ _ _ a | .dgfixr _ _ _ a | .dgfltr _ _ _ a => some a
  | _ => none

end Sys2Proof.Claims

/-! ## The statements -/

open Sys2Proof Sys2Proof.Machine

/-- O1. After reset, whatever the parameters, all seven flags are clear, the parameters are the given ones, and every
memory word at an address above 17 octal reads as unwritten. That the run state is Running is the model's choice (log
entry 26): R701 has no row for it. The values of the accumulators and of the PC are the model's own (log entries 1 and
2) and are not stated. (R65, R701, R710) -/
def Obligations.ResetIsClearAndUnwritten : Prop :=
  ∀ cfg : Params, let s := State.resetWith cfg
    s.flags = ⟨false, false, false, false, false, false, false⟩ ∧ s.run = .running ∧ s.cfg = cfg ∧
    ∀ x : MemAddr, 16 ≤ x.toNat → s.readWord x = none

/-- O2. At reset, whatever the parameters, memory is in its canonical form and Overflow and Trap1 agree. (R701, R62)
-/
def Obligations.ResetMeetsTheInvariants : Prop :=
  ∀ cfg : Params, (State.resetWith cfg).wf = true ∧
    (State.resetWith cfg).flags.overflow = (State.resetWith cfg).flags.trap1

/-- O3. Running, with the word at PC written and its effective address answered: if that word alone decodes to i, the
step is exec i at that state; if its opcode is 123 and the word at its E, whose own effective address is answered,
decodes with it to i, the step is exec i at that state. exec moves the PC itself, so the step adds nothing. (R712,
R152) -/
def Obligations.StepRunsTheDecodedInstruction : Prop :=
  ∀ (s : State) (w : Word) (i : Instr) (e : Half), s.run = .running → s.readWord (loc s.pc) = some w →
    effAddr s (addrOf w) = .ok e →
    (decode [w] = .ok (i, []) → step s = exec i s) ∧
    (∀ (x : Word) (e1 : Half), opOf w = 0o123#9 → s.readWord (loc e) = some x → effAddr s (addrOf x) = .ok e1 →
      decode [w, x] = .ok (i, []) → step s = exec i s)

/-- O4. Running, with a word at PC whose opcode is 254 and whose AC field is 4 and whose effective address is
answered, the step sets the run state to Halted and changes nothing else. A Halted machine steps to itself, and a
Faulted or Refused one answers its reason again: the model's choice (log entries 8 and 9), the spec steps only from
Running. (R712, R715, R157) -/
def Obligations.HaltAndStoppedMachines : Prop :=
  (∀ (s : State) (w : Word) (e : Half), s.run = .running → s.readWord (loc s.pc) = some w →
    opOf w = 0o254#9 → acOf w = 4#4 → effAddr s (addrOf w) = .ok e → step s = .next { s with run := .halted }) ∧
  (∀ s : State, (s.run = .halted → step s = .next s) ∧ (∀ f, s.run = .faulted f → step s = .fault f) ∧
    (∀ r, s.run = .refused r → step s = .refused r))

/-- O5. Running, with a word at PC whose effective address is answered: an opcode outside the list of R153 that is not
HALT is refused with that opcode; after opcode 123 an extended opcode other than 021 to 031 is refused with it.
Executing a G-format instruction when HAS_GFLOAT is false is refused with the opcode, and for the EXTEND form the
extended opcode, that R153 gives that instruction. (R156) -/
def Obligations.WordsOutsideTheMapAreRefused : Prop :=
  (∀ (s : State) (w : Word) (e : Half), s.run = .running → s.readWord (loc s.pc) = some w →
    effAddr s (addrOf w) = .ok e →
    (¬ Claims.coreOpcode (opOf w).toNat → ¬ (opOf w = 0o254#9 ∧ acOf w = 4#4) →
      step s = .refused (.notInCore (opOf w) none)) ∧
    (∀ (x : Word) (e1 : Half), opOf w = 0o123#9 → s.readWord (loc e) = some x → effAddr s (addrOf x) = .ok e1 →
      ¬ (0o21 ≤ (opOf x).toNat ∧ (opOf x).toNat ≤ 0o31) →
      step s = .refused (.notInCore (opOf w) (some (opOf x))))) ∧
  (∀ (s : State) (ac xac : AcNum) (a a1 : AddrSpec), s.cfg.hasGfloat = false →
    (∀ row ∈ [(Instr.gfad ac a, 0o102#9), (.gfsb ac a, 0o103#9), (.gfmp ac a, 0o106#9), (.gfdv ac a, 0o107#9)],
      exec row.1 s = .refused (.notInCore row.2 none)) ∧
    (∀ row ∈ [(Instr.gsngl ac a xac a1, 0o21#9), (.gdble ac a xac a1, 0o22#9), (.dgfix ac a xac a1, 0o23#9),
        (.gfix ac a xac a1, 0o24#9), (.dgfixr ac a xac a1, 0o25#9), (.gfixr ac a xac a1, 0o26#9),
        (.dgfltr ac a xac a1, 0o27#9), (.gfltr ac a xac a1, 0o30#9), (.gfsc ac a xac a1, 0o31#9)],
      exec row.1 s = .refused (.notInCore 0o123#9 (some row.2))))

/-- O6. Running: if the word at PC is unwritten the step faults with that address; so does the word at E after opcode
123; and an effective address that reads an unwritten word faults with the address of that word, be it that of the
word at PC or, after opcode 123, that of the extended word. (R712, R701, R152) -/
def Obligations.UnwrittenWordsFaultTheFetch : Prop :=
  ∀ s : State, s.run = .running →
    (s.readWord (loc s.pc) = none → step s = .fault (.readUnwritten (loc s.pc))) ∧
    (∀ w, s.readWord (loc s.pc) = some w →
      (∀ x, effAddr s (addrOf w) = .error (.fault (.unwritten x)) → step s = .fault (.readUnwritten x)) ∧
      (∀ e, effAddr s (addrOf w) = .ok e → opOf w = 0o123#9 → s.readWord (loc e) = none →
        step s = .fault (.readUnwritten (loc e))) ∧
      (∀ e x y, effAddr s (addrOf w) = .ok e → opOf w = 0o123#9 → s.readWord (loc e) = some x →
        effAddr s (addrOf x) = .error (.fault (.unwritten y)) → step s = .fault (.readUnwritten y)))

/-- O7. For every instruction that fills M[0] from memory (the basic, memory and both modes, the skips, the fixed
ports and the byte instructions), whatever the parameters but that HAS_GFLOAT holds for a G-format instruction: if E
is answered and C(E) is unwritten, exec faults with the address of E; the double-word instructions fault with the
address of E + 1 if C(E) is written and C(E+1) is not. That SETZ, SETA, SETCA and SETO read C(E), which they ignore,
is the model's inference (log entry 4); the order of the two reads is the model's (log entry 19). (R712, R701) -/
def Obligations.UnwrittenOperandsFault : Prop :=
  ∀ (s : State) (i : Instr) (a : AddrSpec) (e : Half), effAddr s a = .ok e →
    (Claims.needsGfloat i = true → s.cfg.hasGfloat = true) →
    (Claims.readsWordAt i = some a → s.readWord (loc e) = none → exec i s = .fault (.readUnwritten (loc e))) ∧
    (Claims.readsPairAt i = some a → s.readWord (loc e) = none → exec i s = .fault (.readUnwritten (loc e))) ∧
    (Claims.readsPairAt i = some a → s.readWord (loc e) ≠ none → s.readWord (Claims.succAddr s.cfg e) = none →
      exec i s = .fault (.readUnwritten (Claims.succAddr s.cfg e)))

/-- O8. With E = Y, or Y plus the right half of the index register modulo 2^18 when X is not 0: if I is 0 the
effective address is E; if I is 1 and the word at E is unwritten the calculation faults with its address; if I is 1
and the word at E is w the effective address is that of w, however long the chain of indirect words is. (R711, R151)
-/
def Obligations.EffectiveAddressFollowsIndirection : Prop :=
  ∀ (s : State) (a : AddrSpec),
    let e : Half := BitVec.ofNat 18 (a.y.toNat + if a.x = 0 then 0 else (s.ac a.x).toNat)
    (a.i = false → effAddr s a = .ok e) ∧
    (a.i = true → s.readWord (loc e) = none → effAddr s a = .error (.fault (.unwritten (loc e)))) ∧
    (a.i = true → ∀ w, s.readWord (loc e) = some w → effAddr s a = effAddr s (addrOf w))

/-- O9. If a set of address fields holds a, and each member of the set has I = 1 and names a written word whose own
address fields are in the set, the calculation from a does not answer; a step that fetches a word with such fields, at
PC or as the extended word after opcode 123, and LDB, DPB, ILDB and IDPB through a local pointer whose byte is reached
by such fields, end as the model's stuck state (log entry 10). (R711, R508) -/
def Obligations.IndirectionCyclesNeverAnswer : Prop :=
  ∀ (s : State) (P : AddrSpec → Prop),
    (∀ a, P a → a.i = true ∧ ∃ w, s.readWord (loc (BitVec.ofNat 18
      (a.y.toNat + if a.x = 0 then 0 else (s.ac a.x).toNat))) = some w ∧ P (addrOf w)) →
    (∀ a, P a → effAddr s a = .error .cycle) ∧
    (∀ w, s.run = .running → s.readWord (loc s.pc) = some w → P (addrOf w) → step s = .fault .indirectionCycle) ∧
    (∀ w e x, s.run = .running → s.readWord (loc s.pc) = some w → effAddr s (addrOf w) = .ok e → opOf w = 0o123#9 →
      s.readWord (loc e) = some x → P (addrOf x) → step s = .fault .indirectionCycle) ∧
    (∀ ac a e w0 bp, effAddr s a = .ok e → Claims.PointerAt s e w0 bp → bp.form = .owl ∨ bp.form = .twl →
      ∀ row ∈ Claims.reachingInstrs ac a bp, P ⟨row.2.i, row.2.x, row.2.y.setWidth 18⟩ →
        exec row.1 s = .fault .indirectionCycle)

/-- O10. After a word is stored at an address, reading that address gives the word and reading any other gives what it
gave before. Reading the word at an address n up to 17 octal gives accumulator n and storing to it is storing to
accumulator n, which changes no memory cell and no other accumulator. (R110, R105, R710, R107) -/
def Obligations.ReadSeesTheLatestWrite : Prop :=
  (∀ (s : State) (x y : MemAddr) (w : Word), (s.writeWord x w).readWord y = if y = x then some w else s.readWord y) ∧
  (∀ (s : State) (n : AcNum) (w : Word), s.readWord (n.setWidth 30) = some (s.ac n) ∧
    s.writeWord (n.setWidth 30) w = s.setAc n w ∧ (s.setAc n w).ac n = w ∧ (s.setAc n w).mem = s.mem ∧
    (∀ m, m ≠ n → (s.setAc n w).ac m = s.ac m))

/-- O11. For every state whose memory lists strictly rising addresses, none below 20 octal and none outside the
address space: if the step answers a next state, that state's memory has the same form, whatever instruction ran.
(R100, R710) -/
def Obligations.StepKeepsMemoryCanonical : Prop :=
  ∀ s t : State, s.wf = true → step s = .next t → t.wf = true

/-- O12. If a step answers a next state, the configuration parameters are those before it. In that state the run state
is the one before it or Halted and the failing writes of the collaborator are those before it: these two clauses are
the model's, which answers R712's Faulted and Refused as outcomes with no next state (log entry 8) and holds the
failing writes in a field of its own that no step writes (log entry 7). (R66, R700, R712, R715) -/
def Obligations.StepKeepsTheParameters : Prop :=
  ∀ s t : State, step s = .next t → t.cfg = s.cfg ∧ t.writeFaults = s.writeFaults ∧
    (t.run = s.run ∨ t.run = .halted)

/-- O13. For every instruction and state there is one outcome whatever the flag register holds: either a flag delta d
and a next state t such that from flags f the instruction answers t with flags f united with d; or one fault; or one
refusal. The same holds of a step. (R61) -/
def Obligations.FlagsAreNeverReadNorCleared : Prop :=
  (∀ (i : Instr) (s : State),
    (∃ (d : Flags) (t : State), ∀ f, exec i { s with flags := f } = .next { t with flags := f.union d }) ∨
    (∃ r, ∀ f, exec i { s with flags := f } = .fault r) ∨ (∃ r, ∀ f, exec i { s with flags := f } = .refused r)) ∧
  (∀ s : State,
    (∃ (d : Flags) (t : State), ∀ f, step { s with flags := f } = .next { t with flags := f.union d }) ∨
    (∃ r, ∀ f, step { s with flags := f } = .fault r) ∨ (∃ r, ∀ f, step { s with flags := f } = .refused r))

/-- O14. With FIDELITY = Clean (the quirk functions of R368 are free), from every state in which Overflow and Trap1
agree, a step that answers a next state answers one in which they agree. (R62, R368) -/
def Obligations.OverflowAndTrap1ArePaired : Prop :=
  ∀ s t : State, s.cfg.fidelity = .clean → s.flags.overflow = s.flags.trap1 → step s = .next t →
    t.flags.overflow = t.flags.trap1

/-- O15. For every instruction, if exec answers a next state: an accumulator that is no destination (acDests) and is
not stored to as a memory word (memDests) is unchanged; every word that is neither a memory destination nor a
destination accumulator's reads as before; the parameters, the run state and the failing writes (the model's field,
log entry 7) are unchanged: a stop is an outcome and leaves no next state (log entry 8). The destinations are computed
by the model's own effective address, canonical form and byte address at the state before. (R713, R158, R159, R160,
R161, R162, R163, R500) -/
def Obligations.FrameOfEveryInstruction : Prop :=
  ∀ (i : Instr) (s t : State), exec i s = .next t →
    (∀ n : AcNum, n ∉ Claims.acDests i s → n.setWidth 30 ∉ Claims.memDests i s → t.ac n = s.ac n) ∧
    (∀ x : MemAddr, x ∉ Claims.memDests i s → (∀ n ∈ Claims.acDests i s, x ≠ n.setWidth 30) →
      t.readWord x = s.readWord x) ∧
    t.run = s.run ∧ t.cfg = s.cfg ∧ t.writeFaults = s.writeFaults

/-- O16. With FIDELITY = Clean, if exec answers a next state, its flags are those before it and at most the flags that
R602 and the instruction's rule name for it (mayReport); the boolean functions, ROT, LSH, ROTC, LSHC, FLTR, GFLTR,
DGFLTR, GDBLE, MOVMI and the byte instructions other than ADJBP report none. (R602, R603) -/
def Obligations.FlagsOfEveryInstruction : Prop :=
  ∀ (i : Instr) (s t : State), s.cfg.fidelity = .clean → exec i s = .next t →
    ∃ d : Flags, t.flags = s.flags.union d ∧ d.union (Claims.mayReport i) = Claims.mayReport i

/-- O17. If exec answers a next state: AOJ and SOJ go to E if their condition holds of the signed result, now in AC,
else to PC + 1; AOS and SOS go to PC + 2 if their condition holds of the signed result, now at E, else to PC + 1;
every other instruction, also after a no-divide or a conversion that stored nothing, goes to PC + 1. (R714) -/
def Obligations.NextPcOfEveryInstruction : Prop :=
  (∀ row ∈ Claims.aojRows ++ Claims.sojRows, ∀ ac a s t, exec (row.1 ac a) s = .next t →
    ∃ e, effAddr s a = .ok e ∧ t.pc = if row.2 (t.ac ac).toInt then e else s.pc + 1) ∧
  (∀ row ∈ Claims.aosRows ++ Claims.sosRows, ∀ ac a s t, exec (row.1 ac a) s = .next t →
    ∃ e r, effAddr s a = .ok e ∧ t.readWord (loc e) = some r ∧
      t.pc = if row.2 r.toInt then s.pc + 2 else s.pc + 1) ∧
  (∀ i s t, (∀ row ∈ Claims.aojRows ++ Claims.sojRows ++ Claims.aosRows ++ Claims.sosRows, ∀ ac a, i ≠ row.1 ac a) →
    exec i s = .next t → t.pc = s.pc + 1)

/-- O18. In the PC word of a flag register and a program counter, Overflow is bit 35, Carry0 34, Carry1 33, FOV 32,
Trap1 25, FXU 24, NoDiv 23, and bits 17:0 are the PC. That the bits the spec names no flag for are 0 is the model's
(log entry 22) and is not stated. (R64) -/
def Obligations.PcWordHoldsTheFlags : Prop :=
  ∀ (f : Flags) (pc : Half), (pcWord f pc).getLsbD 35 = f.overflow ∧ (pcWord f pc).getLsbD 34 = f.carry0 ∧
    (pcWord f pc).getLsbD 33 = f.carry1 ∧ (pcWord f pc).getLsbD 32 = f.fov ∧ (pcWord f pc).getLsbD 25 = f.trap1 ∧
    (pcWord f pc).getLsbD 24 = f.fxu ∧ (pcWord f pc).getLsbD 23 = f.noDiv ∧ (pcWord f pc).toNat % 2 ^ 18 = pc.toNat

/-- O19. For every well-formed instruction of every family, with every value of its fields, decoding its encoded words
followed by any further words gives that instruction and those further words. (R150, R151, R152, R153) -/
def Obligations.DecodeOfEncode : Prop :=
  ∀ (i : Instr) (ws : List Word), i.wf = true → decode (encode i ++ ws) = .ok (i, ws)

/-- O20. If words decode to an instruction and a rest, that instruction is well formed and its encoded words followed
by the rest are those words: no bit of a word is dropped. (R150, R151, R152, R153) -/
def Obligations.EncodeOfDecode : Prop :=
  ∀ (ws rest : List Word) (i : Instr), decode ws = .ok (i, rest) → i.wf = true ∧ encode i ++ rest = ws

/-- O21. One word or pair of words of each family, written as its octal opcode, AC, I, X and Y fields, decodes to the
instruction the opcode map names. (R151, R152, R153) -/
def Obligations.DecodesWrittenWords : Prop :=
  decode [0b010111000_0001_0_0000_000000000001000000#36] = .ok (.add 1 ⟨false, 0, 0o100⟩, []) ∧
  decode [0b010001101_0010_0_0000_000000000000000101#36] = .ok (.movmi 2 ⟨false, 0, 5⟩, []) ∧
  decode [0b011101010_0000_1_0011_000000000001000000#36] = .ok (.aose 0 ⟨true, 3, 0o100⟩, []) ∧
  decode [0b001001100_0100_0_0000_000000000001000000#36] = .ok (.dadd 4 ⟨false, 0, 0o100⟩, []) ∧
  decode [0b010011011_0101_0_0000_000000000001000000#36] = .ok (.idivb 5 ⟨false, 0, 0o100⟩, []) ∧
  decode [0b100000110_0110_0_0000_000000000001000000#36] = .ok (.andm 6 ⟨false, 0, 0o100⟩, []) ∧
  decode [0b010100100_0111_0_0000_111111111111111111#36] = .ok (.ashc 7 ⟨false, 0, 0o777777⟩, []) ∧
  decode [0b001100101_1000_0_0000_010000001100000000#36] = .ok (.fadri 8 ⟨false, 0, 0o201400⟩, []) ∧
  decode [0b001001011_1001_0_0000_000000000001000000#36] = .ok (.dfdv 9 ⟨false, 0, 0o100⟩, []) ∧
  decode [0b001011011_0000_0_0000_000000000001000000#36] = .ok (.ibp ⟨false, 0, 0o100⟩, []) ∧
  decode [0b001011011_0001_0_0000_000000000001000000#36] = .ok (.adjbp 1 ⟨false, 0, 0o100⟩, []) ∧
  decode [0b001010011_1010_0_0000_000000000001000000#36, 0b000010100_0000_0_0000_000000000010000000#36] =
    .ok (.gfix 10 ⟨false, 0, 0o100⟩ 0 ⟨false, 0, 0o200⟩, [])

/-- O22. ADD, ADDI, ADDM, ADDB complete for every state in which E is answered and the operand of the mode is written:
the sum modulo 2^36 is stored by the mode, the flags are those of the truth table over the signs of the operands and
of the result, and nothing else changes but the PC. (R204, R202) -/
def Obligations.AddStoresTheSum : Prop :=
  ∀ row ∈ ([(.basic, .add), (.immediate, .addi), (.memory, .addm), (.both, .addb)] : List (Mode × BasicMaker)), ∀ ac a s e b, effAddr s a = .ok e →
    Claims.operandIs row.1 Claims.zeroLeft s e b →
    exec (row.2 ac a) s = Claims.ends s (Claims.addTable (s.ac ac).msb b.msb (s.ac ac + b).msb)
      (Claims.stored row.1 ac e (s.ac ac + b))

/-- O23. SUB, SUBI, SUBM, SUBB complete for every state in which E is answered and the operand of the mode is written:
the difference modulo 2^36 is stored by the mode, with the flags of the subtraction table over the signs of the
operands and of the result. (R205, R203) -/
def Obligations.SubStoresTheDifference : Prop :=
  ∀ row ∈ ([(.basic, .sub), (.immediate, .subi), (.memory, .subm), (.both, .subb)] : List (Mode × BasicMaker)), ∀ ac a s e b, effAddr s a = .ok e →
    Claims.operandIs row.1 Claims.zeroLeft s e b →
    exec (row.2 ac a) s = Claims.ends s (Claims.subTable (s.ac ac).msb b.msb (s.ac ac - b).msb)
      (Claims.stored row.1 ac e (s.ac ac - b))

/-- O24. MOVN, MOVNI, MOVNM, MOVNS complete for every state in which E is answered and the operand of the mode is
written: the two's complement is stored by the mode; zero reports Carry0 and Carry1, the most-negative word Overflow
and Trap1 (and Carry1 under NEG_MAXNEG_CARRY1), every other word nothing. (R206) -/
def Obligations.MovnStoresTheNegative : Prop :=
  ∀ row ∈ ([(.basic, .movn), (.immediate, .movni), (.memory, .movnm), (.self, .movns)] : List (MoveMode × BasicMaker)), ∀ ac a s e x,
    effAddr s a = .ok e → Claims.moveOperandIs row.1 s ac e x →
    exec (row.2 ac a) s =
      Claims.ends s
        (if x = 0 then Claims.fixedFlags true true false
         else if x = 0o400000000000#36 then Claims.negateOverflow s.cfg else .none)
        (Claims.movedTo row.1 ac e (-x))

/-- O25. MOVM, MOVMI, MOVMM, MOVMS complete for every state in which E is answered and the operand of the mode is
written: a non-negative word is stored as it is, a negative one negated; only the most-negative word reports flags.
(R207) -/
def Obligations.MovmStoresTheMagnitude : Prop :=
  ∀ row ∈ ([(.basic, .movm), (.immediate, .movmi), (.memory, .movmm), (.self, .movms)] : List (MoveMode × BasicMaker)), ∀ ac a s e x,
    effAddr s a = .ok e → Claims.moveOperandIs row.1 s ac e x →
    exec (row.2 ac a) s =
      Claims.ends s (if x = 0o400000000000#36 then Claims.negateOverflow s.cfg else .none)
        (Claims.movedTo row.1 ac e (if x.msb then -x else x))

/-- O26. The eight AOJ instructions complete wherever E is answered and the eight AOS instructions where C(E) is also
written: the result is one more modulo 2^36; 377777,,777777 reports Carry1, Overflow, Trap1, ONES reports Carry0 and
Carry1, every other word nothing; AOJ stores to AC and jumps, AOS stores to E (and to AC when its field is not 0) and
skips, as the condition on the signed result says. (R208) -/
def Obligations.IncrementsAddOne : Prop :=
  let flags : Word → Flags := fun x =>
    if x = 0o377777777777#36 then Claims.fixedFlags false true true
    else if x = BitVec.allOnes 36 then Claims.fixedFlags true true false else .none
  (∀ row ∈ Claims.aojRows, Claims.Jumps row (fun x => x + 1) flags) ∧
  (∀ row ∈ Claims.aosRows, Claims.Skips row (fun x => x + 1) flags)

/-- O27. The eight SOJ instructions complete wherever E is answered and the eight SOS instructions where C(E) is also
written: the result is one less modulo 2^36; MAXNEG reports Carry0, Overflow, Trap1, zero nothing, every other word
Carry0 and Carry1; stores, jumps and skips are those of AOJ and AOS. (R209) -/
def Obligations.DecrementsSubtractOne : Prop :=
  let flags : Word → Flags := fun x =>
    if x = 0o400000000000#36 then Claims.fixedFlags true false true
    else if x = 0 then .none else Claims.fixedFlags true true false
  (∀ row ∈ Claims.sojRows, Claims.Jumps row (fun x => x - 1) flags) ∧
  (∀ row ∈ Claims.sosRows, Claims.Skips row (fun x => x - 1) flags)

/-- O28. DADD and DSUB complete wherever E is answered and C(E), C(E+1) are written: AC, AC+1 hold the sum or
difference of the 71-bit values modulo 2^71, the sign of the low word a copy of the sign of the high word, with the
flags of the addition or subtraction table over the signs of the high words. (R211, R212, R210) -/
def Obligations.DoubleWordsAddAndSubtract : Prop :=
  ∀ ac a s e d, effAddr s a = .ok e → Claims.pairAt s e d →
    let sum := Claims.writeBack71 (Claims.value71 (Claims.acs2 s ac) + Claims.value71 d)
    let diff := Claims.writeBack71 (Claims.value71 (Claims.acs2 s ac) - Claims.value71 d)
    exec (.dadd ac a) s =
      Claims.ends s (Claims.addTable (s.ac ac).msb d.1.msb sum.1.msb) (Claims.toAcs ac sum) ∧
    exec (.dsub ac a) s =
      Claims.ends s (Claims.subTable (s.ac ac).msb d.1.msb diff.1.msb) (Claims.toAcs ac diff)

/-- O29. DMOVN completes wherever E is answered and C(E), C(E+1) are written, DMOVNM wherever E is answered: the
71-bit value is negated modulo 2^71, the sign of the low word is 0, and flags are reported only under DMOVN_FLAGS =
AsNegate, for zero and for the most-negative value. DMOVN stores to AC, AC+1 and DMOVNM to E, E+1. (R213) -/
def Obligations.DmovnNegatesDoubleWords : Prop :=
  let result : Word × Word → Word × Word := fun d =>
    ((Claims.writeBack71 (-Claims.value71 d)).1,
      BitVec.ofNat 36 ((Claims.writeBack71 (-Claims.value71 d)).2.toNat % 2 ^ 35))
  let flags : Params → Word × Word → Flags := fun cfg d =>
    if cfg.dmovnFlags = .silent then .none
    else if Claims.value71 d = 0 then Claims.fixedFlags true true false
    else if Claims.value71 d = -2 ^ 70 then Claims.negateOverflow cfg else .none
  (∀ ac a s e d, effAddr s a = .ok e → Claims.pairAt s e d →
    exec (.dmovn ac a) s = Claims.ends s (flags s.cfg d) (Claims.toAcs ac (result d))) ∧
  (∀ ac a s e, effAddr s a = .ok e →
    exec (.dmovnm ac a) s = Claims.ends s (flags s.cfg (Claims.acs2 s ac)) fun u =>
      (u.writeWord (loc e) (result (Claims.acs2 s ac)).1).writeWord (Claims.succAddr s.cfg e)
        (result (Claims.acs2 s ac)).2)

/-- O30. IMUL, IMULI, IMULM, IMULB complete wherever E is answered and the operand of the mode is written: the sign of
the 71-bit product and its low 35 bits are stored by the mode; OVF is reported exactly when the product is outside a
signed word. (R253) -/
def Obligations.ImulStoresTheProduct : Prop :=
  ∀ row ∈ ([(.basic, .imul), (.immediate, .imuli), (.memory, .imulm), (.both, .imulb)] : List (Mode × BasicMaker)), ∀ ac a s e b, effAddr s a = .ok e →
    Claims.operandIs row.1 Claims.zeroLeft s e b →
    let p := (s.ac ac).toInt * b.toInt
    exec (row.2 ac a) s = Claims.ends s (if p < -2 ^ 35 ∨ p ≥ 2 ^ 35 then Claims.overflowSet else .none)
      (Claims.stored row.1 ac e (Claims.writeBack71 p).2)

/-- O31. MUL, MULI, MULM, MULB complete wherever E is answered and the operand of the mode is written: the product
modulo 2^71 as a double word is stored by the mode (both words to AC, AC+1; the high word to E; or both), and OVF is
reported exactly for the product 2^70. (R254) -/
def Obligations.MulStoresTheDoubleProduct : Prop :=
  ∀ row ∈ ([(.basic, .mul), (.immediate, .muli), (.memory, .mulm), (.both, .mulb)] : List (Mode × BasicMaker)), ∀ ac a s e b, effAddr s a = .ok e →
    Claims.operandIs row.1 Claims.zeroLeft s e b →
    let p := (s.ac ac).toInt * b.toInt
    exec (row.2 ac a) s = Claims.ends s (if p = 2 ^ 70 then Claims.overflowSet else .none)
      (Claims.storedPair row.1 ac e (Claims.writeBack71 p))

/-- O32. DMUL completes wherever E is answered and C(E), C(E+1) are written: AC to AC+3 hold the product of the 71-bit
values modulo 2^141, the sign copied into the three low words, and OVF is reported exactly for the product 2^140.
(R255) -/
def Obligations.DmulStoresTheQuadProduct : Prop :=
  ∀ ac a s e d, effAddr s a = .ok e → Claims.pairAt s e d →
    let p := Claims.value71 (Claims.acs2 s ac) * Claims.value71 d
    exec (.dmul ac a) s = Claims.ends s (if p = 2 ^ 140 then Claims.overflowSet else .none)
      (Claims.toAcs4 ac (Claims.writeBack141 p))

/-- O33. IDIV, IDIVI, IDIVM, IDIVB complete wherever E is answered and the operand of the mode is written: with a zero
divisor, or MAXNEG by 1 or -1 under IDIV_MAXNEG = Strict, nothing is stored and DIVF is reported; otherwise the
quotient truncated toward zero and the remainder with the sign of the dividend are stored by the mode and no flag is
reported. (R256) -/
def Obligations.IdivStoresQuotientAndRemainder : Prop :=
  ∀ row ∈ ([(.basic, .idiv), (.immediate, .idivi), (.memory, .idivm), (.both, .idivb)] : List (Mode × BasicMaker)), ∀ ac a s e b, effAddr s a = .ok e →
    Claims.operandIs row.1 Claims.zeroLeft s e b →
    let n := (s.ac ac).toInt
    let d := b.toInt
    let fails := d = 0 ∨ (s.cfg.idivMaxneg = .strict ∧ n = -2 ^ 35 ∧ (d = 1 ∨ d = -1))
    (fails → exec (row.2 ac a) s = Claims.ends s Claims.noDivideSet Claims.nothing) ∧
    (¬ fails → ∀ q r : Int, Claims.IsQuotient n d q r →
      exec (row.2 ac a) s =
        Claims.ends s .none (Claims.storedPair row.1 ac e (BitVec.ofInt 36 q, BitVec.ofInt 36 r)))

/-- O34. DIV, DIVI, DIVM, DIVB complete wherever E is answered and the operand of the mode is written: if the divisor
is zero or the magnitude of the dividend is at least 2^35 times its own, nothing is stored and DIVF is reported;
otherwise quotient and remainder are stored by the mode and no flag is reported. (R257) -/
def Obligations.DivStoresQuotientAndRemainder : Prop :=
  ∀ row ∈ ([(.basic, .div), (.immediate, .divi), (.memory, .divm), (.both, .divb)] : List (Mode × BasicMaker)), ∀ ac a s e b, effAddr s a = .ok e →
    Claims.operandIs row.1 Claims.zeroLeft s e b →
    let n := Claims.value71 (Claims.acs2 s ac)
    let d := b.toInt
    ((d = 0 ∨ |n| ≥ |d| * 2 ^ 35) → exec (row.2 ac a) s = Claims.ends s Claims.noDivideSet Claims.nothing) ∧
    (¬ (d = 0 ∨ |n| ≥ |d| * 2 ^ 35) → ∀ q r : Int, Claims.IsQuotient n d q r →
      exec (row.2 ac a) s =
        Claims.ends s .none (Claims.storedPair row.1 ac e (BitVec.ofInt 36 q, BitVec.ofInt 36 r)))

/-- O35. DDIV completes wherever E is answered and C(E), C(E+1) are written: if the divisor is zero or the magnitude
of the dividend is at least 2^70 times its own, nothing is stored and DIVF is reported; otherwise AC, AC+1 hold the
quotient and AC+2, AC+3 the remainder as double words and no flag is reported. (R258) -/
def Obligations.DdivStoresQuotientAndRemainder : Prop :=
  ∀ ac a s e w, effAddr s a = .ok e → Claims.pairAt s e w →
    let n := Claims.value141 s ac
    let d := Claims.value71 w
    ((d = 0 ∨ |n| ≥ |d| * 2 ^ 70) → exec (.ddiv ac a) s = Claims.ends s Claims.noDivideSet Claims.nothing) ∧
    (¬ (d = 0 ∨ |n| ≥ |d| * 2 ^ 70) → ∀ q r : Int, Claims.IsQuotient n d q r →
      exec (.ddiv ac a) s =
        Claims.ends s .none (Claims.toAcs4 ac (Claims.writeBack71 q, Claims.writeBack71 r)))

/-- O36. The 64 boolean instructions complete wherever E is answered and the operand of the mode is written: bit i of
the stored word is bit (1 - a[i]) + 2 * (1 - b[i]) of the function number, stored by the mode, with no flag. (R300) -/
def Obligations.BooleanFunctionsBitByBit : Prop :=
  ∀ row ∈ Claims.booleanTable, ∀ ac a s e b, effAddr s a = .ok e →
    Claims.operandIs row.2.1 Claims.zeroLeft s e b →
    ∃ r, Claims.IsBoolean row.1 (s.ac ac) b r ∧
      exec (row.2.2 ac a) s = Claims.ends s .none (Claims.stored row.2.1 ac e r)

/-- O37. ASH completes wherever E is answered. Left by c: bit 35 is unchanged, bit i of the result is bit i - c of the
word below bit 35 and 0 under c, and OVF is reported exactly when the shifted value is outside a signed word. Right:
the signed value is divided by 2^n toward minus infinity, with no flag. (R321) -/
def Obligations.AshShiftsTheMagnitude : Prop :=
  ∀ ac a s e, effAddr s a = .ok e →
    let x := s.ac ac
    let c := Claims.shiftCount e
    (0 ≤ c → ∃ r : Word, r.getLsbD 35 = x.getLsbD 35 ∧
      (∀ i < 35, r.getLsbD i = (decide (c.toNat ≤ i) && x.getLsbD (i - c.toNat))) ∧
      exec (.ash ac a) s =
        Claims.ends s (if x.toInt * 2 ^ c.toNat < -2 ^ 35 ∨ x.toInt * 2 ^ c.toNat ≥ 2 ^ 35 then Claims.overflowSet
          else .none) (Claims.toAc ac r)) ∧
    (c < 0 → exec (.ash ac a) s = Claims.ends s .none (Claims.toAc ac (x.sshiftRight (-c).toNat)))

/-- O38. ASHC completes wherever E is answered. A count of 0 leaves both words. Left: the sign is kept, the low 70
bits of the shifted value follow it, the sign is copied into the low word, and OVF is reported exactly when the
shifted value is outside 71 signed bits. Right: the value is divided by 2^n toward minus infinity, with no flag.
(R324) -/
def Obligations.AshcShiftsTheDoubleMagnitude : Prop :=
  ∀ ac a s e, effAddr s a = .ok e →
    let v := Claims.value71 (Claims.acs2 s ac)
    let c := Claims.shiftCount e
    (c = 0 → exec (.ashc ac a) s = Claims.ends s .none (Claims.toAcs ac (Claims.acs2 s ac))) ∧
    (0 < c → exec (.ashc ac a) s =
      Claims.ends s (if v * 2 ^ c.toNat < -2 ^ 70 ∨ v * 2 ^ c.toNat ≥ 2 ^ 70 then Claims.overflowSet else .none)
        (Claims.toAcs ac (Claims.writeBack71
          ((if (s.ac ac).msb then 2 ^ 70 else 0) + (v * 2 ^ c.toNat) % 2 ^ 70)))) ∧
    (c < 0 → exec (.ashc ac a) s =
      Claims.ends s .none (Claims.toAcs ac (Claims.writeBack71 ⌊(v : ℚ) / 2 ^ (-c).toNat⌋)))

/-- O39. ROT and ROTC complete wherever E is answered, report nothing, and rotate left by the count modulo 36 or 72:
bit (i + count) modulo the width of the result is bit i of the operand. (R322, R325) -/
def Obligations.RotatesTurnTheBits : Prop :=
  ∀ ac a s e, effAddr s a = .ok e →
    let c := Claims.shiftCount e
    (∃ r : Word, (∀ i < 36, r.getLsbD ((((i : Nat) : Int) + c) % 36).toNat = (s.ac ac).getLsbD i) ∧
      exec (.rot ac a) s = Claims.ends s .none (Claims.toAc ac r)) ∧
    (∃ hi lo : Word, (∀ i < 72, (hi ++ lo : BitVec 72).getLsbD ((((i : Nat) : Int) + c) % 72).toNat =
        (s.ac ac ++ s.ac (ac + 1) : BitVec 72).getLsbD i) ∧
      exec (.rotc ac a) s = Claims.ends s .none (Claims.toAcs ac (hi, lo)))

/-- O40. LSH and LSHC complete wherever E is answered and report nothing: bit i of the result is bit i - count of the
operand where there is one and 0 elsewhere, for a count of either sign. (R323, R326) -/
def Obligations.LogicalShiftsMoveTheBits : Prop :=
  ∀ ac a s e, effAddr s a = .ok e →
    let c := Claims.shiftCount e
    (∃ r : Word, (∀ i < 36, r.getLsbD i = (decide (c ≤ i) && (s.ac ac).getLsbD ((i : Int) - c).toNat)) ∧
      exec (.lsh ac a) s = Claims.ends s .none (Claims.toAc ac r)) ∧
    (∃ hi lo : Word, (∀ i < 72, (hi ++ lo : BitVec 72).getLsbD i =
        (decide (c ≤ i) && (s.ac ac ++ s.ac (ac + 1) : BitVec 72).getLsbD ((i : Int) - c).toNat)) ∧
      exec (.lshc ac a) s = Claims.ends s .none (Claims.toAcs ac (hi, lo)))

/-- O41. In each format, with k = 27, 27, 24 fraction bits in word 0: a word with sign 0 has its exponent field and
fraction field as exponent and fraction; with sign 1 its exponent is 2^ew - 1 less the field and its fraction is the
field less 2^N. Word 1 of F and bit 35 of word 1 of D and G do not matter. (R355) -/
def Obligations.UnpackReadsTheFields : Prop :=
  ∀ w0 w1 : Word,
    unpack .f (w0, w1) = (if w0.getLsbD 35 then (255 - ((w0.extractLsb' 27 8).toNat : Int),
        ((w0.extractLsb' 0 27).toNat : Int) - 2 ^ 27)
      else (((w0.extractLsb' 27 8).toNat : Int), ((w0.extractLsb' 0 27).toNat : Int))) ∧
    unpack .d (w0, w1) = (if w0.getLsbD 35 then (255 - ((w0.extractLsb' 27 8).toNat : Int),
        ((w0.extractLsb' 0 27 ++ w1.extractLsb' 0 35 : BitVec 62).toNat : Int) - 2 ^ 62)
      else (((w0.extractLsb' 27 8).toNat : Int), ((w0.extractLsb' 0 27 ++ w1.extractLsb' 0 35 : BitVec 62).toNat : Int))) ∧
    unpack .g (w0, w1) = (if w0.getLsbD 35 then (2047 - ((w0.extractLsb' 24 11).toNat : Int),
        ((w0.extractLsb' 0 24 ++ w1.extractLsb' 0 35 : BitVec 59).toNat : Int) - 2 ^ 59)
      else (((w0.extractLsb' 24 11).toNat : Int), ((w0.extractLsb' 0 24 ++ w1.extractLsb' 0 35 : BitVec 59).toNat : Int)))

/-- O42. In each format, for a normalized fraction F and an exponent E from 0 to Emax, unpacking the packed words
gives back E and F, and bit 35 of word 1 is 0. (R355, R365, R357, R354) -/
def Obligations.PackedResultsUnpack : Prop :=
  ∀ (φ : Fmt) (e f : Int), 0 ≤ e → e ≤ φ.emax →
    (2 ^ (φ.n - 1) ≤ f ∧ f < 2 ^ φ.n) ∨ (-2 ^ φ.n < f ∧ f ≤ -2 ^ (φ.n - 1)) →
    unpack φ (pack φ e f) = (e, f) ∧ (pack φ e f).2.getLsbD 35 = false

/-- O43. The fourteen instructions complete wherever E is answered and the operand of the mode (E,,0 for FADRI and
FSBRI) is written: with q the exact rational sum or difference of the operands, the stored word and the reported flags
are those of FRES of q, truncated for FAD and FSB and rounded for FADR and FSBR. (R401, R402, R403, R404) -/
def Obligations.FloatAddAndSubtractAreExact : Prop :=
  let adds (rnd : Bool) (row : Mode × BasicMaker) (f : ℚ → ℚ → ℚ) : Prop := ∀ ac a s e b, effAddr s a = .ok e →
    Claims.operandIs row.1 Claims.zeroRight s e b →
    ∃ w fl, Claims.IsResultF (f (Claims.valueF (s.ac ac)) (Claims.valueF b)) rnd w fl ∧
      exec (row.2 ac a) s = Claims.ends s fl (Claims.stored row.1 ac e w)
  (∀ row ∈ ([(.basic, .fad), (.memory, .fadm), (.both, .fadb)] : List (Mode × BasicMaker)), adds false row (· + ·)) ∧
  (∀ row ∈ ([(.basic, .fadr), (.immediate, .fadri), (.memory, .fadrm), (.both, .fadrb)] : List (Mode × BasicMaker)), adds true row (· + ·)) ∧
  (∀ row ∈ ([(.basic, .fsb), (.memory, .fsbm), (.both, .fsbb)] : List (Mode × BasicMaker)), adds false row (· - ·)) ∧
  (∀ row ∈ ([(.basic, .fsbr), (.immediate, .fsbri), (.memory, .fsbrm), (.both, .fsbrb)] : List (Mode × BasicMaker)), adds true row (· - ·))

/-- O44. The seven instructions complete wherever E is answered and the operand of the mode (E,,0 for FMPRI) is
written: with q the exact product, FMPR stores FRES of q rounded; FMP stores FRES of q truncated, except that under
FIDELITY = Hardware a negative product has the word and flags of the free function Q_FMP (log entry 11). (R406, R407)
-/
def Obligations.FloatMultiplyIsExact : Prop :=
  (∀ row ∈ ([(.basic, .fmp), (.memory, .fmpm), (.both, .fmpb)] : List (Mode × BasicMaker)), ∀ ac a s e b, effAddr s a = .ok e →
    Claims.operandIs row.1 Claims.zeroRight s e b →
    let q := Claims.valueF (s.ac ac) * Claims.valueF b
    (s.cfg.fidelity = .hardware ∧ q < 0 → exec (row.2 ac a) s =
      Claims.ends s (Config.qFmp s.cfg.cpuModel (s.ac ac) b).2
        (Claims.stored row.1 ac e (Config.qFmp s.cfg.cpuModel (s.ac ac) b).1)) ∧
    (¬ (s.cfg.fidelity = .hardware ∧ q < 0) → ∃ w fl, Claims.IsResultF q false w fl ∧
      exec (row.2 ac a) s = Claims.ends s fl (Claims.stored row.1 ac e w))) ∧
  (∀ row ∈ ([(.basic, .fmpr), (.immediate, .fmpri), (.memory, .fmprm), (.both, .fmprb)] : List (Mode × BasicMaker)), ∀ ac a s e b, effAddr s a = .ok e →
    Claims.operandIs row.1 Claims.zeroRight s e b →
    ∃ w fl, Claims.IsResultF (Claims.valueF (s.ac ac) * Claims.valueF b) true w fl ∧
      exec (row.2 ac a) s = Claims.ends s fl (Claims.stored row.1 ac e w))

/-- O45. The seven instructions complete wherever E is answered and the operand of the mode (E,,0 for FDVRI) is
written: if the divisor's fraction is 0 or the dividend's is at least twice it in magnitude, nothing is stored and
FDIVF is reported; otherwise FRES of the exact quotient is stored, truncated for FDV and rounded for FDVR, except that
under FIDELITY = Hardware a negative quotient has the word and flags of the free function Q_FDV (log entry 11). (R408,
R409, R410) -/
def Obligations.FloatDivideIsExact : Prop :=
  let divides (rnd : Bool) (row : Mode × BasicMaker) : Prop := ∀ ac a s e b, effAddr s a = .ok e →
    Claims.operandIs row.1 Claims.zeroRight s e b →
    let fails := Claims.FloatNoDivide .f (s.ac ac, 0) (b, 0)
    let q := Claims.valueF (s.ac ac) / Claims.valueF b
    let o := Config.qFdv s.cfg.cpuModel (s.ac ac) b rnd
    (fails → exec (row.2 ac a) s = Claims.ends s Claims.floatNoDivideSet Claims.nothing) ∧
    (¬ fails → s.cfg.fidelity = .hardware ∧ q < 0 →
      exec (row.2 ac a) s = Claims.ends s o.2 (Claims.stored row.1 ac e o.1)) ∧
    (¬ fails → ¬ (s.cfg.fidelity = .hardware ∧ q < 0) → ∃ w fl, Claims.IsResultF q rnd w fl ∧
      exec (row.2 ac a) s = Claims.ends s fl (Claims.stored row.1 ac e w))
  (∀ row ∈ ([(.basic, .fdv), (.memory, .fdvm), (.both, .fdvb)] : List (Mode × BasicMaker)), divides false row) ∧
  (∀ row ∈ ([(.basic, .fdvr), (.immediate, .fdvri), (.memory, .fdvrm), (.both, .fdvrb)] : List (Mode × BasicMaker)), divides true row)

/-- O46. UFA completes wherever E is answered and C(E) is written: the fractions are aligned to the larger exponent
and their sum is floored; a sum outside the fraction's range is halved and the exponent raised by one; a zero sum
stores 0 and any other the word of that exponent and fraction, in AC+1 only, with FOVF exactly when a nonzero sum's
exponent is above 255. (R411) -/
def Obligations.UfaAddsWithoutNormalizing : Prop :=
  ∀ ac a s e b, effAddr s a = .ok e → s.readWord (loc e) = some b →
    let ea := (unpack .f (s.ac ac, 0)).1
    let eb := (unpack .f (b, 0)).1
    let big := max ea eb
    let sum := ⌊((unpack .f (s.ac ac, 0)).2 : ℚ) * 2 ^ (ea - big) + ((unpack .f (b, 0)).2 : ℚ) * 2 ^ (eb - big)⌋
    let f := if sum ≥ 2 ^ 27 ∨ sum < -2 ^ 27 then ⌊(sum : ℚ) / 2⌋ else sum
    let e' := if sum ≥ 2 ^ 27 ∨ sum < -2 ^ 27 then big + 1 else big
    (f = 0 → exec (.ufa ac a) s = Claims.ends s .none (Claims.toAc (ac + 1) 0)) ∧
    (f ≠ 0 → ∃ w, Claims.IsPacked .f e' f (w, 0) ∧
      exec (.ufa ac a) s =
        Claims.ends s (if e' > 255 then Claims.floatOverflowSet else .none) (Claims.toAc (ac + 1) w))

/-- O47. FIX and FIXR complete wherever E is answered and C(E) is written: with the operand's exponent above 243 octal
nothing is stored and OVF is reported; otherwise AC holds the operand truncated toward zero (FIX) or the floor of the
operand plus one half (FIXR), with no flag. (R412, R413, R414) -/
def Obligations.FixConvertsOrStoresNothing : Prop :=
  ∀ ac a s e b, effAddr s a = .ok e → s.readWord (loc e) = some b →
    ((unpack .f (b, 0)).1 > 0o243 →
      exec (.fix ac a) s = Claims.ends s Claims.overflowSet Claims.nothing ∧
      exec (.fixr ac a) s = Claims.ends s Claims.overflowSet Claims.nothing) ∧
    ((unpack .f (b, 0)).1 ≤ 0o243 →
      exec (.fix ac a) s =
        Claims.ends s .none (Claims.toAc ac (BitVec.ofInt 36 (Claims.truncated (Claims.valueF b)))) ∧
      exec (.fixr ac a) s =
        Claims.ends s .none (Claims.toAc ac (BitVec.ofInt 36 (Claims.roundedHalfUp (Claims.valueF b)))))

/-- O48. FLTR completes wherever E is answered and C(E) is written, FSC wherever E is answered: FLTR stores FRES of
the signed integer, rounded, and reports no flag; FSC stores FRES of the operand times 2 to the count, truncated. For
an integer below 2^27 in magnitude, FIX and FIXR of the word FLTR stores give the integer back with no flag. (R415,
R416) -/
def Obligations.FltrAndFscAreExact : Prop :=
  (∀ ac a s e b, effAddr s a = .ok e → s.readWord (loc e) = some b →
    ∃ w, Claims.IsResultF (b.toInt : ℚ) true w .none ∧
      exec (.fltr ac a) s = Claims.ends s .none (Claims.toAc ac w) ∧
      (|b.toInt| < 2 ^ 27 → ∀ ac' a' s' e', effAddr s' a' = .ok e' → s'.readWord (loc e') = some w →
        exec (.fix ac' a') s' = Claims.ends s' .none (Claims.toAc ac' b) ∧
        exec (.fixr ac' a') s' = Claims.ends s' .none (Claims.toAc ac' b))) ∧
  (∀ ac a s e, effAddr s a = .ok e →
    ∃ w fl, Claims.IsResultF (Claims.valueF (s.ac ac) * 2 ^ Claims.shiftCount e) false w fl ∧
      exec (.fsc ac a) s = Claims.ends s fl (Claims.toAc ac w))

/-- O49. The four instructions complete wherever E is answered and C(E), C(E+1) are written: AC, AC+1 hold FRES of the
exact sum, difference or product; DFDV with a zero divisor fraction, or a dividend fraction at least twice it, stores
nothing and reports FDIVF, and else stores FRES of the exact quotient, except that under FIDELITY = Hardware a
negative quotient has the words and flags of the free function Q_DFDV (log entry 11). (R451, R452, R453, R454) -/
def Obligations.DoubleFloatArithmeticIsExact : Prop :=
  ∀ ac a s e d, effAddr s a = .ok e → Claims.pairAt s e d →
    let x := Claims.value .d (Claims.acs2 s ac)
    let y := Claims.value .d d
    let gives (i : Instr) (q : ℚ) : Prop := ∃ w fl, Claims.IsResult .d q s.cfg.doubleRound w fl ∧
      exec i s = Claims.ends s fl (Claims.toAcs ac w)
    let fails := Claims.FloatNoDivide .d (Claims.acs2 s ac) d
    let o := Config.qDfdv s.cfg.cpuModel (Claims.acs2 s ac) d
    gives (.dfad ac a) (x + y) ∧ gives (.dfsb ac a) (x - y) ∧ gives (.dfmp ac a) (x * y) ∧
    (fails → exec (.dfdv ac a) s = Claims.ends s Claims.floatNoDivideSet Claims.nothing) ∧
    (¬ fails → s.cfg.fidelity = .hardware ∧ x / y < 0 →
      exec (.dfdv ac a) s = Claims.ends s o.2 (Claims.toAcs ac o.1)) ∧
    (¬ fails → ¬ (s.cfg.fidelity = .hardware ∧ x / y < 0) → gives (.dfdv ac a) (x / y))

/-- O50. With HAS_GFLOAT the four instructions complete wherever E is answered and C(E), C(E+1) are written: AC, AC+1
hold FRES of the exact sum, difference, product or quotient in G format, rounded; GFDV with a zero divisor fraction,
or a dividend fraction at least twice it, stores nothing and reports FDIVF. (R461, R462, R463, R464) -/
def Obligations.GFloatArithmeticIsExact : Prop :=
  ∀ ac a s e d, s.cfg.hasGfloat = true → effAddr s a = .ok e → Claims.pairAt s e d →
    let x := Claims.value .g (Claims.acs2 s ac)
    let y := Claims.value .g d
    let gives (i : Instr) (q : ℚ) : Prop := ∃ w fl, Claims.IsResult .g q true w fl ∧
      exec i s = Claims.ends s fl (Claims.toAcs ac w)
    let fails := Claims.FloatNoDivide .g (Claims.acs2 s ac) d
    gives (.gfad ac a) (x + y) ∧ gives (.gfsb ac a) (x - y) ∧ gives (.gfmp ac a) (x * y) ∧
    (fails → exec (.gfdv ac a) s = Claims.ends s Claims.floatNoDivideSet Claims.nothing) ∧
    (¬ fails → gives (.gfdv ac a) (x / y))

/-- O51. With HAS_GFLOAT the four instructions complete wherever E1 is answered and C(E1), C(E1+1) are written: above
exponent 2043 octal (one word) or 2106 octal (two words) nothing is stored and OVF is reported; otherwise AC, or AC
and AC+1 as a fixed-point double word, hold the operand truncated toward zero (GFIX, DGFIX) or the floor of it plus
one half (GFIXR, DGFIXR). (R465, R466, R467, R468, R469) -/
def Obligations.GFixConvertsOrStoresNothing : Prop :=
  ∀ ac a0 xac a1 s e d, s.cfg.hasGfloat = true → effAddr s a1 = .ok e → Claims.pairAt s e d →
    let q := Claims.value .g d
    let fail (i : Instr) : Prop := exec i s = Claims.ends s Claims.overflowSet Claims.nothing
    let one (i : Instr) (v : Int) : Prop := exec i s = Claims.ends s .none (Claims.toAc ac (BitVec.ofInt 36 v))
    let two (i : Instr) (v : Int) : Prop := exec i s = Claims.ends s .none (Claims.toAcs ac (Claims.writeBack71 v))
    ((unpack .g d).1 > 0o2043 → fail (.gfix ac a0 xac a1) ∧ fail (.gfixr ac a0 xac a1)) ∧
    ((unpack .g d).1 ≤ 0o2043 →
      one (.gfix ac a0 xac a1) (Claims.truncated q) ∧ one (.gfixr ac a0 xac a1) (Claims.roundedHalfUp q)) ∧
    ((unpack .g d).1 > 0o2106 → fail (.dgfix ac a0 xac a1) ∧ fail (.dgfixr ac a0 xac a1)) ∧
    ((unpack .g d).1 ≤ 0o2106 →
      two (.dgfix ac a0 xac a1) (Claims.truncated q) ∧ two (.dgfixr ac a0 xac a1) (Claims.roundedHalfUp q))

/-- O52. With HAS_GFLOAT the four instructions complete wherever E1 is answered and their operand is written: GFLTR
and DGFLTR store FRES of the integer in G format, GDBLE FRES of the F value in G format, each with no flag, and GSNGL
FRES of the G value in F format, rounded, with the flags of its exponent. (R471, R472, R473, R474) -/
def Obligations.GConversionsAreExact : Prop :=
  ∀ ac a0 xac a1 s e, s.cfg.hasGfloat = true → effAddr s a1 = .ok e →
    (∀ b, s.readWord (loc e) = some b →
      (∃ w, Claims.IsResult .g (b.toInt : ℚ) true w .none ∧
        exec (.gfltr ac a0 xac a1) s = Claims.ends s .none (Claims.toAcs ac w)) ∧
      (∃ w, Claims.IsResult .g (Claims.valueF b) false w .none ∧
        exec (.gdble ac a0 xac a1) s = Claims.ends s .none (Claims.toAcs ac w))) ∧
    (∀ d, Claims.pairAt s e d →
      (∃ w, Claims.IsResult .g (Claims.value71 d : ℚ) true w .none ∧
        exec (.dgfltr ac a0 xac a1) s = Claims.ends s .none (Claims.toAcs ac w)) ∧
      (∃ w fl, Claims.IsResultF (Claims.value .g d) true w fl ∧
        exec (.gsngl ac a0 xac a1) s = Claims.ends s fl (Claims.toAc ac w)))

/-- O53. With HAS_GFLOAT GFSC completes wherever E1 is answered: AC, AC+1 hold FRES of the operand times 2 to the
count of E1, truncated, except that under FIDELITY = Hardware an all-ones fraction field with a positive count has the
words and flags of the free function Q_GFSC (log entry 11). (R470) -/
def Obligations.GfscScalesOrIsAQuirk : Prop :=
  ∀ ac a0 xac a1 s e, s.cfg.hasGfloat = true → effAddr s a1 = .ok e →
    let d := Claims.acs2 s ac
    let c := Claims.shiftCount e
    let band := s.cfg.fidelity = .hardware ∧ (unpack .g d).2 % 2 ^ 59 = 2 ^ 59 - 1 ∧ c > 0
    let o := Config.qGfsc s.cfg.cpuModel d c
    (band → exec (.gfsc ac a0 xac a1) s = Claims.ends s o.2 (Claims.toAcs ac o.1)) ∧
    (¬ band → ∃ w fl, Claims.IsResult .g (Claims.value .g d * 2 ^ c) false w fl ∧
      exec (.gfsc ac a0 xac a1) s = Claims.ends s fl (Claims.toAcs ac w))

/-- O54. For every first word and outcome m1 of reading the second: with P the field 35:30 and S the field 29:24, it
is one-word local when EXTENDED is false or P is at most 36 and bit 23 is 0; one-word global by the code table when P
is above 36, and malformed for code 77; else two-word by bits 35:34 of the second word, which is the only case in
which the second word matters. BP_TRAP holds of the malformed forms and of no well-formed pointer with S other than 0,
and its default is S = 0 with P other than 0. (R501, R502, R503, R504, R506, R507) -/
def Obligations.CanonicalFormOfAPointer : Prop :=
  ∀ (cfg : Params) (w0 : Word) (m1 : Except MemInfo Word),
    let p := Claims.field w0 30 6
    let sz := Claims.field w0 24 6
    ((cfg.extended = false ∨ (p ≤ 36 ∧ w0.getLsbD 23 = false)) → canon cfg w0 m1 =
      .ok ⟨.owl, p, sz, w0.getLsbD 22, BitVec.ofNat 4 (Claims.field w0 18 4), BitVec.ofNat 30 (Claims.field w0 0 18)⟩) ∧
    (cfg.extended = true → ∀ p' s', (p, p', s') ∈ Claims.owgTable →
      canon cfg w0 m1 = .ok ⟨.owg, p', s', false, 0, BitVec.ofNat 30 (Claims.field w0 0 30)⟩) ∧
    (cfg.extended = true → p = 0o77 → canon cfg w0 m1 = .ok ⟨.owgBad, p, sz, false, 0, 0⟩) ∧
    (cfg.extended = true → p ≤ 36 → w0.getLsbD 23 = true →
      (∀ info, m1 = .error info → canon cfg w0 m1 = .error info) ∧
      (∀ w1, m1 = .ok w1 →
        (Claims.field w1 34 2 = 2 → canon cfg w0 m1 = .ok ⟨.twl, p, sz, w1.getLsbD 22,
          BitVec.ofNat 4 (Claims.field w1 18 4), BitVec.ofNat 30 (Claims.field w1 0 18)⟩) ∧
        (Claims.field w1 34 2 < 2 → canon cfg w0 m1 = .ok ⟨.twg, p, sz, w1.getLsbD 34,
          BitVec.ofNat 4 (Claims.field w1 30 4), BitVec.ofNat 30 (Claims.field w1 0 30)⟩) ∧
        (Claims.field w1 34 2 = 3 → canon cfg w0 m1 = .ok ⟨.twBad, p, sz, false, 0, 0⟩))) ∧
    (∀ bp, canon cfg w0 m1 = .ok bp →
      ((bp.form = .owgBad ∨ bp.form = .twBad) → bpTraps cfg.bpTrap bp = true) ∧
      (¬ (bp.form = .owgBad ∨ bp.form = .twBad) → bp.s ≠ 0 → bpTraps cfg.bpTrap bp = false) ∧
      (cfg.bpTrap = .standard → (bpTraps cfg.bpTrap bp = true ↔ bp.form = .owgBad ∨ bp.form = .twBad ∨
        (bp.form ≠ .owg ∧ bp.s = 0 ∧ bp.p ≠ 0))))

/-- O55. For all six byte instructions, wherever E is answered and C(E) is written: a two-word pointer whose second
word is unwritten ends with MemFault of its address; a pointer BP_TRAP holds of ends with BPTrap of its form, P and S.
LDB, DPB, ILDB and IDPB end with MemFault when the byte's address faults or its word is unwritten, and as the model's
stuck state when the address never answers (log entry 10). DPB and IDPB end with MemFault when the byte's address and
word are answered and the write of the word fails (the failing writes are the model's field, log entry 7). That a
MemFault names the address that failed is the model's (log entry 18), as is that a stop leaves no next state, so that
nothing is written (log entry 8). (R505, R507, R508, R604, R105, R511, R514) -/
def Obligations.MalformedPointersTrapFirst : Prop :=
  ∀ ac a s e w0, effAddr s a = .ok e → s.readWord (loc e) = some w0 →
    (∀ info, canon s.cfg w0 (secondWord s e) = .error info →
      ∀ i ∈ Claims.byteInstrs ac a, exec i s = .fault (.memFault info)) ∧
    (∀ bp, canon s.cfg w0 (secondWord s e) = .ok bp → bpTraps s.cfg.bpTrap bp = true →
      ∀ i ∈ Claims.byteInstrs ac a, exec i s = .fault (.bpTrap bp.form bp.p bp.s)) ∧
    (∀ bp, canon s.cfg w0 (secondWord s e) = .ok bp → bpTraps s.cfg.bpTrap bp = false →
      ∀ row ∈ Claims.reachingInstrs ac a bp,
        (∀ info, byteAddr s row.2 = .error (.fault info) → exec row.1 s = .fault (.memFault info)) ∧
        (∀ x, byteAddr s row.2 = .ok x → s.readWord x = none → exec row.1 s = .fault (.memFault (.unwritten x))) ∧
        (byteAddr s row.2 = .error .cycle → exec row.1 s = .fault .indirectionCycle)) ∧
    (∀ bp, Claims.PointerAt s e w0 bp → ∀ row ∈ Claims.depositInstrs ac a bp, ∀ x w, byteAddr s row.2 = .ok x →
      s.readWord x = some w → s.writeFails x = true → exec row.1 s = .fault (.memFault (.writeRefused x))) ∧
    (s.readWord (Claims.succAddr s.cfg e) = none → s.cfg.extended = true → Claims.field w0 30 6 ≤ 36 →
      w0.getLsbD 23 = true → canon s.cfg w0 (secondWord s e) = .error (.unwritten (Claims.succAddr s.cfg e)))

/-- O56. LDB completes for every pointer form wherever the pointer is written, does not trap, and its byte's address
is answered and written; DPB does so too wherever the write of that word does not fail: LDB stores to AC the S bits at
position P, cut at bit 35; DPB replaces exactly those bits of the word by the low bits of AC and changes nothing else.
For a local pointer the byte's address is the effective address of its I, X and Y fields; for a one-word global it is
its address field; for a two-word global with I = 0 it is Y plus the index register (R508), whose wrap modulo 2^30 is
the model's (log entry 14). (R510, R511, R508, R711) -/
def Obligations.LdbAndDpbMoveTheByte : Prop :=
  ∀ ac a s e w0 bp x w, effAddr s a = .ok e → Claims.PointerAt s e w0 bp → byteAddr s bp = .ok x →
    s.readWord x = some w →
    (∃ b, Claims.IsByte w bp.p bp.s b ∧ exec (.ldb ac a) s = Claims.ends s .none (Claims.toAc ac b)) ∧
    (s.writeFails x = false → ∃ w', Claims.IsDeposit w (s.ac ac) bp.p bp.s w' ∧
      exec (.dpb ac a) s = Claims.ends s .none fun u => u.writeWord x w') ∧
    (bp.form = .owl ∨ bp.form = .twl → ∃ e', effAddr s ⟨bp.i, bp.x, bp.y.setWidth 18⟩ = .ok e' ∧ x = loc e') ∧
    (bp.form = .owg → x = bp.y) ∧
    (bp.form = .twg → bp.i = false →
      x = BitVec.ofNat 30 (bp.y.toNat + if bp.x = 0 then 0 else (s.ac bp.x).toNat))

/-- O57. IBP completes for every pointer form wherever the pointer is written and does not trap: with P and Y those of
the next byte, only the position field and the address field of the pointer's one or two words change, and no flag is
reported. For a one-word global the position field is the code of the new P and S. (R516, R512, R509) -/
def Obligations.IbpAdvancesThePointer : Prop :=
  ∀ a s e w0 w1 bp, effAddr s a = .ok e → Claims.PointerAt s e w0 bp → Claims.secondIs s e w1 →
    ∃ pf v0 v1, Claims.IsPosition bp (Claims.incremented bp).p pf ∧
      Claims.IsWrittenBack bp pf (Claims.incremented bp).y w0 w1 v0 v1 ∧
      exec (.ibp a) s = Claims.ends s .none (Claims.pointerTo e v0 v1)

/-- O58. ILDB completes for every pointer form wherever the pointer is written, does not trap, and the next byte's
address is answered and written; IDPB does so too wherever the write of that word does not fail: the byte is that of
the advanced pointer; IDPB's deposit is stored first; the advanced pointer is written back in its own form; ILDB's
byte is stored to AC last. No flag is reported. (R513, R514) -/
def Obligations.IldbAndIdpbAdvanceThenMove : Prop :=
  ∀ ac a s e w0 w1 bp x w, effAddr s a = .ok e → Claims.PointerAt s e w0 bp → Claims.secondIs s e w1 →
    byteAddr s (Claims.incremented bp) = .ok x → s.readWord x = some w →
    ∃ pf v0 v1, Claims.IsPosition bp (Claims.incremented bp).p pf ∧
      Claims.IsWrittenBack bp pf (Claims.incremented bp).y w0 w1 v0 v1 ∧
      (∃ b, Claims.IsByte w (Claims.incremented bp).p bp.s b ∧
        exec (.ildb ac a) s = Claims.ends s .none fun u => Claims.toAc ac b (Claims.pointerTo e v0 v1 u)) ∧
      (s.writeFails x = false → ∃ w', Claims.IsDeposit w (s.ac ac) (Claims.incremented bp).p bp.s w' ∧
        exec (.idpb ac a) s = Claims.ends s .none fun u => Claims.pointerTo e v0 v1 (u.writeWord x w'))

/-- O59. ADJBP completes for every pointer form wherever the pointer is written and does not trap. S = 0: the
pointer's words are stored to AC, AC+1 as they are. No byte per word: nothing is stored and DIVF is reported. Else,
with L bytes to the left, bpw bytes per word and the residue of 36 - P: for the Q and r in 1..bpw with count + L = Q *
bpw + r, the pointer with P' = 36 - r * S - residue and Y moved by Q words is stored to AC, AC+1 in its own form.
Where bpw is negative the spec's formula leaves no P field: Y moves by the floor of (count + L - 1) / bpw and the
position field is free: that clause is the model's choice (log entry 12). (R515) -/
def Obligations.AdjbpAdjustsThePointer : Prop :=
  ∀ ac a s e w0 w1 bp, ac ≠ 0 → effAddr s a = .ok e → Claims.PointerAt s e w0 bp → Claims.secondIs s e w1 →
    let left : Int := (36 - (bp.p : Int)) / bp.s
    let bpw : Int := left + (bp.p / bp.s : Nat)
    let res : Int := (36 - (bp.p : Int)) % bp.s
    let n : Int := (s.ac ac).toInt
    (bp.s = 0 → exec (.adjbp ac a) s = Claims.ends s .none (Claims.pointerToAc ac w0
      (if bp.form = .twl ∨ bp.form = .twg then some w1 else none))) ∧
    (bp.s ≠ 0 → bpw = 0 → exec (.adjbp ac a) s = Claims.ends s Claims.noDivideSet Claims.nothing) ∧
    (bp.s ≠ 0 → 0 < bpw → ∀ q r : Int, n + left = q * bpw + r → 1 ≤ r → r ≤ bpw →
      0 ≤ 36 - r * bp.s - res ∧
      ∃ pf v0 v1, Claims.IsPosition bp (36 - r * bp.s - res).toNat pf ∧
        Claims.IsWrittenBack bp pf (Claims.movedY bp q) w0 w1 v0 v1 ∧
        exec (.adjbp ac a) s = Claims.ends s .none (Claims.pointerToAc ac v0 v1)) ∧
    (bp.s ≠ 0 → bpw < 0 → ∃ pf v0 v1,
      Claims.IsWrittenBack bp pf (Claims.movedY bp ⌊((n + left - 1 : Int) : ℚ) / bpw⌋) w0 w1 v0 v1 ∧
      exec (.adjbp ac a) s = Claims.ends s .none (Claims.pointerToAc ac v0 v1))

/-- O60. For every state and pointer of canonical form: a local pointer's byte address is the effective address of its
I, X and Y fields, with that calculation's fault or its cycle where it has one; a one-word global's is its address
field; a two-word global's with I = 0 is Y, or Y plus the index register when X is not 0. That the sum is taken modulo
2^30 is the model's (log entry 14). (R508, R711, R105) -/
def Obligations.ByteAddressOfEveryForm : Prop :=
  ∀ (s : State) (bp : Bp),
    (bp.form = .owl ∨ bp.form = .twl →
      (∀ e, effAddr s ⟨bp.i, bp.x, bp.y.setWidth 18⟩ = .ok e → byteAddr s bp = .ok (e.setWidth 30)) ∧
      (∀ err, effAddr s ⟨bp.i, bp.x, bp.y.setWidth 18⟩ = .error err → byteAddr s bp = .error err)) ∧
    (bp.form = .owg → byteAddr s bp = .ok bp.y) ∧
    (bp.form = .twg → bp.i = false →
      byteAddr s bp = .ok (BitVec.ofNat 30 (bp.y.toNat + if bp.x = 0 then 0 else (s.ac bp.x).toNat)))
end

