-- ==== Sys2Proof/Laws/Exact.lean ====
section
/-! SUPPORT. The exact rationals of the floating rules, as rationals: each operation of `Exact` is the operation of ℚ it is
named after, its floors are floors, and its logarithm brackets its magnitude. -/

namespace Sys2Proof.Machine

/-- The rational an `Exact` denotes. -/
def Exact.toRat (x : Exact) : ℚ := (x.num : ℚ) / (x.den : ℚ) * (2 : ℚ) ^ x.exp

theorem two_zpow_ne_zero (n : ℤ) : (2 : ℚ) ^ n ≠ 0 := zpow_ne_zero n (by norm_num)

theorem Exact.toRat_ofInt (n : Int) : (Exact.ofInt n).toRat = n := by simp [Exact.toRat, Exact.ofInt]

theorem Exact.toRat_neg (x : Exact) : x.neg.toRat = -x.toRat := by simp [Exact.toRat, Exact.neg]; ring

theorem Exact.toRat_mul (x y : Exact) : (x.mul y).toRat = x.toRat * y.toRat := by
  simp only [Exact.toRat, Exact.mul, zpow_add₀ (by norm_num : (2 : ℚ) ≠ 0)]
  push_cast
  ring

theorem Exact.toRat_scale (x : Exact) (c : Int) : (x.scale c).toRat = x.toRat * 2 ^ c := by
  simp only [Exact.toRat, Exact.scale, zpow_add₀ (by norm_num : (2 : ℚ) ≠ 0)]
  ring

/-- A natural power of two between two exponents. -/
theorem two_pow_toNat {a b : Int} (h : b ≤ a) : ((2 ^ (a - b).toNat : Int) : ℚ) * 2 ^ b = 2 ^ a := by
  have e : ((a - b).toNat : Int) = a - b := Int.toNat_of_nonneg (by omega)
  push_cast
  rw [← zpow_natCast, e, ← zpow_add₀ (by norm_num : (2 : ℚ) ≠ 0)]
  congr 1
  omega

theorem Exact.toRat_add (x y : Exact) (hx : x.den ≠ 0) (hy : y.den ≠ 0) : (x.add y).toRat = x.toRat + y.toRat := by
  have hx' : (x.den : ℚ) ≠ 0 := by exact_mod_cast hx
  have hy' : (y.den : ℚ) ≠ 0 := by exact_mod_cast hy
  have ex := two_pow_toNat (min_le_left x.exp y.exp)
  have ey := two_pow_toNat (min_le_right x.exp y.exp)
  simp only [Exact.toRat, Exact.add]
  rw [← ex, ← ey]
  push_cast
  field_simp

theorem Exact.toRat_sub (x y : Exact) (hx : x.den ≠ 0) (hy : y.den ≠ 0) : (x.sub y).toRat = x.toRat - y.toRat := by
  rw [Exact.sub, Exact.toRat_add x y.neg hx hy, Exact.toRat_neg]; ring

theorem Exact.toRat_div (x y : Exact) (hy : y.num ≠ 0) : (x.div y).toRat = x.toRat / y.toRat := by
  have hs : (y.num.sign : ℚ) / (y.num.natAbs : ℚ) = 1 / (y.num : ℚ) := by
    have h1 : (y.num.natAbs : ℚ) = ((y.num.natAbs : Int) : ℚ) := (Int.cast_natCast _).symm
    have h2 : (y.num.sign : Int) * y.num.natAbs = y.num := Int.sign_mul_natAbs y.num
    have h3 : y.num.sign * y.num.sign = 1 := by
      rcases lt_trichotomy y.num 0 with h | h | h
      · simp [Int.sign_eq_neg_one_of_neg h]
      · exact absurd h hy
      · simp [Int.sign_eq_one_of_pos h]
    have hn : ((y.num.natAbs : Int) : ℚ) ≠ 0 := by exact_mod_cast (Int.natAbs_ne_zero.mpr hy)
    have hy' : (y.num : ℚ) ≠ 0 := by exact_mod_cast hy
    rw [h1, div_eq_div_iff hn hy']
    have h4 : y.num.sign * y.num = y.num.natAbs := by
      calc y.num.sign * y.num = y.num.sign * (y.num.sign * y.num.natAbs) := by rw [h2]
        _ = y.num.natAbs := by rw [← mul_assoc, h3, one_mul]
    rw [one_mul]
    exact_mod_cast h4
  simp only [Exact.toRat, Exact.div, zpow_sub₀ (by norm_num : (2 : ℚ) ≠ 0)]
  push_cast
  have e : ((x.num : ℚ) * y.den * y.num.sign) / (x.den * (y.num.natAbs : ℚ)) =
      (x.num : ℚ) * y.den / x.den * ((y.num.sign : ℚ) / (y.num.natAbs : ℚ)) := by ring
  rw [e, hs]
  have := two_zpow_ne_zero y.exp
  by_cases hd : (y.den : ℚ) = 0
  · simp [hd]
  · by_cases hxd : (x.den : ℚ) = 0
    · simp [hxd]
    · have hy' : (y.num : ℚ) ≠ 0 := by exact_mod_cast hy
      field_simp

/-- `floorScaled` is the floor of the scaled rational. -/
theorem Exact.floorScaled_eq (x : Exact) (j : Int) : x.floorScaled j = ⌊x.toRat * 2 ^ j⌋ := by
  have e : x.toRat * 2 ^ j = (x.num : ℚ) / x.den * 2 ^ (x.exp + j) := by
    rw [Exact.toRat, mul_assoc, ← zpow_add₀ (by norm_num : (2 : ℚ) ≠ 0)]
  rw [e]
  unfold Exact.floorScaled
  simp only
  split
  · next h =>
    have h2 : (2 : ℚ) ^ (x.exp + j) = ((2 ^ (x.exp + j).toNat : Int) : ℚ) := by
      have := two_pow_toNat (a := x.exp + j) (b := 0) h
      simpa using this.symm
    rw [h2, div_mul_eq_mul_div, ← Int.cast_mul, Rat.floor_intCast_div_natCast]
  · next h =>
    have h2 : (2 : ℚ) ^ (x.exp + j) = 1 / ((2 ^ (-(x.exp + j)).toNat : Int) : ℚ) := by
      have := two_pow_toNat (a := 0) (b := x.exp + j) (by omega)
      have hne := two_zpow_ne_zero (x.exp + j)
      simp only [zero_sub, zpow_zero] at this
      rw [eq_div_iff (by intro hz; rw [hz] at this; simp at this), mul_comm]
      exact this
    have h3 : (x.num : ℚ) / x.den * (1 / ((2 ^ (-(x.exp + j)).toNat : Int) : ℚ)) =
        (x.num : ℚ) / ((x.den * 2 ^ (-(x.exp + j)).toNat : Nat) : ℚ) := by
      push_cast
      rw [div_mul_div_comm, mul_one]
    rw [h2, h3, Rat.floor_intCast_div_natCast]
    push_cast
    rfl

/-- `roundScaled` is the floor of the scaled rational plus one half. -/
theorem Exact.roundScaled_eq (x : Exact) (j : Int) :
    x.roundScaled j = ⌊x.toRat * 2 ^ j + 1 / 2⌋ := by
  unfold Exact.roundScaled
  rw [x.floorScaled_eq (j + 1), zpow_add₀ (by norm_num : (2 : ℚ) ≠ 0), zpow_one, ← mul_assoc]
  generalize x.toRat * 2 ^ j = t
  have h1 : (⌊t * 2⌋ + 1 : ℤ) = ⌊t * 2 + 1⌋ := by rw [Int.floor_add_one]
  have h2 : ⌊t + 1 / 2⌋ = ⌊(t * 2 + 1) / ((2 : ℕ) : ℚ)⌋ := by congr 1; push_cast; ring
  rw [h1, h2, Int.floor_div_natCast]
  rfl

/-- The magnitude of a rational with its numerator's. -/
theorem Exact.abs_toRat (x : Exact) : |x.toRat| = (x.num.natAbs : ℚ) / x.den * 2 ^ x.exp := by
  have h : (0 : ℚ) < 2 ^ x.exp := zpow_pos (by norm_num) _
  rw [Exact.toRat, abs_mul, abs_of_pos h, abs_div, Nat.abs_cast, Nat.cast_natAbs, Int.cast_abs]

/-- A quotient of positive naturals lies between two adjacent powers of two, and which is decided on integers. -/
theorem natDiv_log2 (n d : Nat) (hn : n ≠ 0) (hd : d ≠ 0) (l : Int) (hl : l = (Nat.log2 n : Int) - Nat.log2 d) :
    (2 : ℚ) ^ (l - 1) ≤ (n : ℚ) / d ∧ (n : ℚ) / d < 2 ^ (l + 1) := by
  have hn1 : (2 : ℚ) ^ (Nat.log2 n : Int) ≤ n := by
    rw [zpow_natCast]; exact_mod_cast Nat.log2_self_le hn
  have hn2 : (n : ℚ) < 2 ^ ((Nat.log2 n : Int) + 1) := by
    have : n < 2 ^ (Nat.log2 n + 1) := Nat.lt_log2_self
    rw [show ((Nat.log2 n : Int) + 1) = ((Nat.log2 n + 1 : Nat) : Int) by push_cast; rfl, zpow_natCast]
    exact_mod_cast this
  have hd1 : (2 : ℚ) ^ (Nat.log2 d : Int) ≤ d := by
    rw [zpow_natCast]; exact_mod_cast Nat.log2_self_le hd
  have hd2 : (d : ℚ) < 2 ^ ((Nat.log2 d : Int) + 1) := by
    have : d < 2 ^ (Nat.log2 d + 1) := Nat.lt_log2_self
    rw [show ((Nat.log2 d : Int) + 1) = ((Nat.log2 d + 1 : Nat) : Int) by push_cast; rfl, zpow_natCast]
    exact_mod_cast this
  have hpos : (0 : ℚ) < d := by exact_mod_cast Nat.pos_of_ne_zero hd
  have two : (2 : ℚ) ≠ 0 := by norm_num
  constructor
  · rw [le_div_iff₀ hpos]
    calc (2 : ℚ) ^ (l - 1) * d ≤ 2 ^ (l - 1) * 2 ^ ((Nat.log2 d : Int) + 1) :=
          mul_le_mul_of_nonneg_left hd2.le (zpow_pos (by norm_num) _).le
      _ = 2 ^ (Nat.log2 n : Int) := by rw [← zpow_add₀ two]; congr 1; omega
      _ ≤ n := hn1
  · rw [div_lt_iff₀ hpos]
    calc (n : ℚ) < 2 ^ ((Nat.log2 n : Int) + 1) := hn2
      _ = 2 ^ (l + 1) * 2 ^ (Nat.log2 d : Int) := by rw [← zpow_add₀ two]; congr 1; omega
      _ ≤ 2 ^ (l + 1) * d := mul_le_mul_of_nonneg_left hd1 (zpow_pos (by norm_num) _).le

/-- `reaches` compares a quotient with a power of two. -/
theorem reaches_iff (n d : Nat) (hd : d ≠ 0) (l : Int) : reaches n d l = true ↔ (2 : ℚ) ^ l ≤ (n : ℚ) / d := by
  have hpos : (0 : ℚ) < d := by exact_mod_cast Nat.pos_of_ne_zero hd
  rw [le_div_iff₀ hpos, reaches]
  split
  · next h =>
    have e := two_pow_toNat (a := l) (b := 0) h
    simp only [sub_zero, zpow_zero, mul_one] at e
    rw [← e, mul_comm, decide_eq_true_eq]
    push_cast
    exact_mod_cast Iff.rfl
  · next h =>
    have e := two_pow_toNat (a := 0) (b := l) (by omega)
    simp only [zero_sub, zpow_zero] at e
    have hp : (0 : ℚ) < ((2 ^ (-l).toNat : Int) : ℚ) := by positivity
    rw [← mul_le_mul_iff_right₀ hp, ← mul_assoc, e, one_mul, mul_comm, decide_eq_true_eq]
    push_cast
    exact_mod_cast Iff.rfl

/-- `log2` brackets the magnitude of a nonzero rational. -/
theorem Exact.log2_spec (x : Exact) (hn : x.num ≠ 0) (hd : x.den ≠ 0) :
    (2 : ℚ) ^ x.log2 ≤ |x.toRat| ∧ |x.toRat| < 2 ^ (x.log2 + 1) := by
  have hn' : x.num.natAbs ≠ 0 := Int.natAbs_ne_zero.mpr hn
  have two : (2 : ℚ) ≠ 0 := by norm_num
  have he : (0 : ℚ) < 2 ^ x.exp := zpow_pos (by norm_num) _
  obtain ⟨lo, hi⟩ := natDiv_log2 x.num.natAbs x.den hn' hd x.logGap rfl
  have key := reaches_iff x.num.natAbs x.den hd x.logGap
  rw [x.abs_toRat, Exact.log2]
  split
  · next h =>
    rw [key] at h
    rw [zpow_add₀ two, show x.logGap + x.exp + 1 = (x.logGap + 1) + x.exp by ring, zpow_add₀ two (x.logGap + 1)]
    exact ⟨mul_le_mul_of_nonneg_right h he.le, mul_lt_mul_of_pos_right hi he⟩
  · next h =>
    rw [key, not_le] at h
    rw [zpow_add₀ two, show x.logGap - 1 + x.exp + 1 = x.logGap + x.exp by ring, zpow_add₀ two x.logGap]
    exact ⟨mul_le_mul_of_nonneg_right lo he.le, mul_lt_mul_of_pos_right h he⟩

/-- Every value an operand denotes has denominator 1. -/
@[simp] theorem val_den (φ : Fmt) (w : Word × Word) : (val φ w).den = 1 := rfl

end Sys2Proof.Machine
end

