-- ==== Sys2Proof/Laws/Float.lean ====
section
/-! SUPPORT. The normalizer and rounder over the rationals (43_normalize_round.md R356, R360-R362). -/

namespace Sys2Proof.Machine

/-- R360: the scaled magnitude of a nonzero value lies in the normalized range. -/
theorem normExponent_bracket (φ : Fmt) (x : Exact) (hn : x.num ≠ 0) (hd : x.den ≠ 0) :
    (2 : ℚ) ^ (φ.n - 1) ≤ |x.toRat * 2 ^ ((φ.n : Int) + φ.bias - normExponent φ x)| ∧
    |x.toRat * 2 ^ ((φ.n : Int) + φ.bias - normExponent φ x)| < 2 ^ φ.n := by
  obtain ⟨lo, hi⟩ := x.log2_spec hn hd
  have e : ((φ.n : Int) + φ.bias - normExponent φ x) = φ.n - 1 - x.log2 := by unfold normExponent; ring
  have two : (2 : ℚ) ≠ 0 := by norm_num
  have hp : (0 : ℚ) < 2 ^ ((φ.n : Int) - 1 - x.log2) := zpow_pos (by norm_num) _
  rw [e, abs_mul, abs_of_pos hp]
  have hn1 : 1 ≤ φ.n := by cases φ <;> decide
  have hz : ((φ.n - 1 : Nat) : Int) = (φ.n : Int) - 1 := by omega
  constructor
  · calc (2 : ℚ) ^ (φ.n - 1) = 2 ^ x.log2 * 2 ^ ((φ.n : Int) - 1 - x.log2) := by
          rw [← zpow_natCast, hz, ← zpow_add₀ two]; congr 1; ring
      _ ≤ _ := mul_le_mul_of_nonneg_right lo hp.le
  · calc |x.toRat| * 2 ^ ((φ.n : Int) - 1 - x.log2) < 2 ^ (x.log2 + 1) * 2 ^ ((φ.n : Int) - 1 - x.log2) :=
          mul_lt_mul_of_pos_right hi hp
      _ = 2 ^ φ.n := by rw [← zpow_add₀ two, ← zpow_natCast]; congr 1; ring

theorem Exact.toRat_eq_zero {x : Exact} (hd : x.den ≠ 0) : x.toRat = 0 ↔ x.num = 0 := by
  have : (x.den : ℚ) ≠ 0 := by exact_mod_cast hd
  simp [Exact.toRat, two_zpow_ne_zero, this]

/-- The floor of a value below 2^n in magnitude, with or without the rounding half, stays within 2^n. -/
theorem floor_bounds {t : ℚ} {n : Nat} {c : ℚ} (hi : |t| < 2 ^ n) (hc0 : 0 ≤ c) (hc1 : c < 1) :
    -2 ^ n ≤ ⌊t + c⌋ ∧ ⌊t + c⌋ ≤ 2 ^ n := by
  rw [abs_lt] at hi
  constructor
  · apply Int.le_floor.mpr; push_cast; linarith
  · have : ⌊t + c⌋ < 2 ^ n + 1 := by apply Int.floor_lt.mpr; push_cast; linarith
    omega

/-- R361, R362: the fraction before renormalization, as one floor. -/
theorem scaled_eq_floor (x : Exact) (rnd : Bool) (j : Int) :
    (if rnd then x.roundScaled j else x.floorScaled j) = ⌊x.toRat * 2 ^ j + (if rnd then 1 / 2 else 0)⌋ := by
  cases rnd
  · simp [x.floorScaled_eq]
  · simp [x.roundScaled_eq]

theorem val_toRat (φ : Fmt) (w : Word × Word) :
    (val φ w).toRat = (unpack φ w).2 * (2 : ℚ) ^ ((unpack φ w).1 - φ.bias - φ.n) := by
  simp [val, Exact.toRat]

end Sys2Proof.Machine
end

