-- ==== Sys2Proof/Laws/State.lean ====
section
/-! SUPPORT. One lemma for each field under each update of the state, and the accumulators read after a write. -/

namespace Sys2Proof.Machine

/-! ## Fields under updates -/

@[simp] theorem State.setAc_pc (s : State) (n : AcNum) (w : Word) : (s.setAc n w).pc = s.pc := rfl
@[simp] theorem State.setAc_flags (s : State) (n : AcNum) (w : Word) : (s.setAc n w).flags = s.flags := rfl
@[simp] theorem State.setAc_run (s : State) (n : AcNum) (w : Word) : (s.setAc n w).run = s.run := rfl
@[simp] theorem State.setAc_mem (s : State) (n : AcNum) (w : Word) : (s.setAc n w).mem = s.mem := rfl
@[simp] theorem State.setAc_cfg (s : State) (n : AcNum) (w : Word) : (s.setAc n w).cfg = s.cfg := rfl
@[simp] theorem State.setAc_writeFaults (s : State) (n : AcNum) (w : Word) : (s.setAc n w).writeFaults = s.writeFaults := rfl

@[simp] theorem State.setPc_pc (s : State) (p : Half) : (s.setPc p).pc = p := rfl
@[simp] theorem State.setPc_acs (s : State) (p : Half) : (s.setPc p).acs = s.acs := rfl
@[simp] theorem State.setPc_flags (s : State) (p : Half) : (s.setPc p).flags = s.flags := rfl
@[simp] theorem State.setPc_run (s : State) (p : Half) : (s.setPc p).run = s.run := rfl
@[simp] theorem State.setPc_mem (s : State) (p : Half) : (s.setPc p).mem = s.mem := rfl
@[simp] theorem State.setPc_cfg (s : State) (p : Half) : (s.setPc p).cfg = s.cfg := rfl
@[simp] theorem State.setPc_writeFaults (s : State) (p : Half) : (s.setPc p).writeFaults = s.writeFaults := rfl

@[simp] theorem State.report_flags (s : State) (f : Flags) : (s.report f).flags = s.flags.union f := rfl
@[simp] theorem State.report_acs (s : State) (f : Flags) : (s.report f).acs = s.acs := rfl
@[simp] theorem State.report_pc (s : State) (f : Flags) : (s.report f).pc = s.pc := rfl
@[simp] theorem State.report_run (s : State) (f : Flags) : (s.report f).run = s.run := rfl
@[simp] theorem State.report_mem (s : State) (f : Flags) : (s.report f).mem = s.mem := rfl
@[simp] theorem State.report_cfg (s : State) (f : Flags) : (s.report f).cfg = s.cfg := rfl
@[simp] theorem State.report_writeFaults (s : State) (f : Flags) : (s.report f).writeFaults = s.writeFaults := rfl

@[simp] theorem State.writeWord_pc (s : State) (a : MemAddr) (w : Word) : (s.writeWord a w).pc = s.pc := by
  unfold State.writeWord; split <;> rfl
@[simp] theorem State.writeWord_flags (s : State) (a : MemAddr) (w : Word) : (s.writeWord a w).flags = s.flags := by
  unfold State.writeWord; split <;> rfl
@[simp] theorem State.writeWord_run (s : State) (a : MemAddr) (w : Word) : (s.writeWord a w).run = s.run := by
  unfold State.writeWord; split <;> rfl
@[simp] theorem State.writeWord_cfg (s : State) (a : MemAddr) (w : Word) : (s.writeWord a w).cfg = s.cfg := by
  unfold State.writeWord; split <;> rfl
@[simp] theorem State.writeWord_writeFaults (s : State) (a : MemAddr) (w : Word) :
    (s.writeWord a w).writeFaults = s.writeFaults := by
  unfold State.writeWord; split <;> rfl

/-- Whether a write fails rests on the field alone. -/
theorem State.writeFails_congr {s t : State} (h : t.writeFaults = s.writeFaults) (a : MemAddr) :
    t.writeFails a = s.writeFails a := by simp [State.writeFails, h]

/-- After reset no write fails. -/
@[simp] theorem State.writeFails_resetWith (cfg : Params) (a : MemAddr) : (State.resetWith cfg).writeFails a = false := rfl

/-! ## Reads under updates -/

@[simp] theorem State.setPc_ac (s : State) (p : Half) (n : AcNum) : (s.setPc p).ac n = s.ac n := rfl
@[simp] theorem State.report_ac (s : State) (f : Flags) (n : AcNum) : (s.report f).ac n = s.ac n := rfl
@[simp] theorem State.setPc_readWord (s : State) (p : Half) (a : MemAddr) : (s.setPc p).readWord a = s.readWord a := rfl
@[simp] theorem State.report_readWord (s : State) (f : Flags) (a : MemAddr) :
    (s.report f).readWord a = s.readWord a := rfl

/-- An accumulator reads as the last word stored to it, and as before under a store to another. -/
theorem State.ac_setAc (s : State) (n m : AcNum) (w : Word) :
    (s.setAc n w).ac m = if m = n then w else s.ac m := by
  unfold State.ac State.setAc
  simp only [Vector.getElem_set, BitVec.toNat_inj, eq_comm]

@[simp] theorem State.ac_setAc_same (s : State) (n : AcNum) (w : Word) : (s.setAc n w).ac n = w := by
  simp [State.ac_setAc]

theorem State.ac_setAc_other (s : State) (n m : AcNum) (w : Word) (h : m ≠ n) : (s.setAc n w).ac m = s.ac m := by
  simp [State.ac_setAc, h]

/-! ## Flag sets -/

@[simp] theorem Flags.union_none (f : Flags) : f.union .none = f := by
  cases f; simp [Flags.union, Flags.none]

theorem Flags.union_assoc (a b c : Flags) : (a.union b).union c = a.union (b.union c) := by
  cases a; cases b; cases c; simp [Flags.union, Bool.or_assoc]

end Sys2Proof.Machine
end

