-- ==== Sys2Proof/Laws/Memory.lean ====
section
/-! SUPPORT. Memory: a read after a write, and the canonical form that every write keeps. -/

namespace Sys2Proof.Machine

theorem Memory.read_write (m : Memory) (a b : Nat) (w : Word) :
    Memory.read (Memory.write m a w) b = if b = a then some w else Memory.read m b := by
  induction m with
  | nil => simp [Memory.write, Memory.read, eq_comm]
  | cons c rest ih =>
    obtain ⟨k, v⟩ := c
    unfold Memory.write
    split
    · simp [Memory.read, eq_comm]
    · split
      · subst_vars; by_cases h : b = k <;> simp [Memory.read, h, eq_comm]
      · by_cases hb : k = b
        · subst hb; simp_all [Memory.read, eq_comm]
        · simp [Memory.read, hb, ih]

/-- Raising the lower bound of a rising list's addresses to one below its first keeps it rising. -/
theorem Memory.rising_mono {lo lo' hi : Nat} {m : Memory} (h : lo' ≤ lo) (hm : Memory.rising lo hi m = true) :
    Memory.rising lo' hi m = true := by
  cases m with
  | nil => rfl
  | cons c rest =>
    simp only [Memory.rising, Bool.and_eq_true, decide_eq_true_eq] at hm ⊢
    exact ⟨⟨by omega, hm.1.2⟩, hm.2⟩

theorem Memory.rising_write {lo hi : Nat} {m : Memory} {a : Nat} {w : Word} (hlo : lo < a) (hhi : a < hi)
    (hm : Memory.rising lo hi m = true) : Memory.rising lo hi (Memory.write m a w) = true := by
  induction m generalizing lo with
  | nil => simp [Memory.write, Memory.rising, hlo, hhi]
  | cons c rest ih =>
    obtain ⟨k, v⟩ := c
    simp only [Memory.rising, Bool.and_eq_true, decide_eq_true_eq] at hm
    unfold Memory.write
    split
    · simp [Memory.rising, *]
    · split
      · simp_all [Memory.rising]
      · simp only [Memory.rising, Bool.and_eq_true, decide_eq_true_eq]
        exact ⟨hm.1, ih (by omega) hm.2⟩

/-- A write to an address of the space that is no accumulator keeps the canonical form. -/
theorem Memory.wf_write {hi : Nat} {m : Memory} {a : Nat} {w : Word} (hlo : 16 ≤ a) (hhi : a < hi)
    (hm : Memory.wf hi m = true) : Memory.wf hi (Memory.write m a w) = true :=
  Memory.rising_write (by omega) hhi hm

/-- A word store keeps the canonical form of memory where its address is in the address space. -/
theorem State.wf_writeWord {s : State} {a : MemAddr} {w : Word} (ha : a.toNat < Params.space s.cfg) (hs : s.wf = true) :
    (s.writeWord a w).wf = true := by
  unfold State.writeWord
  split
  · exact hs
  · exact Memory.wf_write (by omega) ha hs

theorem State.wf_setAc {s : State} {n : AcNum} {w : Word} (hs : s.wf = true) : (s.setAc n w).wf = true := hs

/-- The memory after reset is canonical. -/
theorem State.wf_reset : State.reset.wf = true := rfl

/-- An 18-bit address is in the address space. -/
theorem loc_lt_space (cfg : Params) (e : Half) : (loc e).toNat < Params.space cfg := by
  have h : (loc e).toNat = e.toNat := by simp [loc, BitVec.toNat_setWidth]; omega
  unfold Params.space
  split <;> omega

/-- The address E + 1 is in the address space. -/
theorem nextLoc_lt_space (cfg : Params) (e : Half) : (nextLoc cfg e).toNat < Params.space cfg := by
  unfold nextLoc
  split
  · next h => simp only [Params.space, h, if_true]; exact BitVec.isLt _
  · exact loc_lt_space cfg (e + 1)

end Sys2Proof.Machine
end

