-- ==== Sys2Proof/Laws/Ops.lean ====
section
/-! SUPPORT. What each shared operation can do, said once: the port-filling combinators go on exactly where their request
answers, and the end of an operation is one of six cases (R712). -/

namespace Sys2Proof.Machine

/-! ## Filling the ports -/

theorem withE_ok {s : State} {a : AddrSpec} {e : Half} {k : Half → Out} (h : effAddr s a = .ok e) :
    withE s a k = k e := by simp [withE, h]

theorem withE_next {s t : State} {a : AddrSpec} {k : Half → Out} (h : withE s a k = .next t) :
    ∃ e, effAddr s a = .ok e ∧ k e = .next t := by
  unfold withE at h
  split at h
  · exact ⟨_, ‹_›, h⟩
  · cases h

theorem withWord_some {s : State} {a : MemAddr} {w : Word} {k : Word → Out} (h : s.readWord a = some w) :
    withWord s a k = k w := by simp [withWord, h]

theorem withWord_next {s t : State} {a : MemAddr} {k : Word → Out} (h : withWord s a k = .next t) :
    ∃ w, s.readWord a = some w ∧ k w = .next t := by
  unfold withWord at h
  split at h
  · exact ⟨_, ‹_›, h⟩
  · cases h

theorem withPair_some {s : State} {e : Half} {hi lo : Word} {k : Word × Word → Out}
    (h0 : s.readWord (loc e) = some hi) (h1 : s.readWord (nextLoc s.cfg e) = some lo) :
    withPair s e k = k (hi, lo) := by simp [withPair, withWord, h0, h1]

theorem withPair_next {s t : State} {e : Half} {k : Word × Word → Out} (h : withPair s e k = .next t) :
    ∃ d, k d = .next t := by
  obtain ⟨hi, _, h⟩ := withWord_next h
  obtain ⟨lo, _, h⟩ := withWord_next h
  exact ⟨_, h⟩

theorem withModeOperand_next {m : Mode} {imm : Half → Word} {s t : State} {e : Half} {k : Word → Out}
    (h : withModeOperand m imm s e k = .next t) : ∃ b, k b = .next t := by
  cases m
  case immediate => exact ⟨_, h⟩
  all_goals obtain ⟨b, _, h⟩ := withWord_next h; exact ⟨b, h⟩

theorem withMoveOperand_next {m : MoveMode} {ac : AcNum} {s t : State} {e : Half} {k : Word → Out}
    (h : withMoveOperand m ac s e k = .next t) : ∃ x, k x = .next t := by
  cases m
  case immediate => exact ⟨_, h⟩
  case memory => exact ⟨_, h⟩
  all_goals obtain ⟨b, _, h⟩ := withWord_next h; exact ⟨b, h⟩

/-! ## The end of an operation -/

/-- Everything an operation's end can do when it answers a next state: store the results of a Done, or keep the flags of a
NoDivide or NoStore and go to PC + 1. -/
theorem retireTo_next {α : Type} {s t : State} {o : CoreOutcome α} {store : α → State → State} {next : α → Half}
    (h : retireTo s o store next = .next t) :
    (∃ r f, o = .done r f ∧ t = (store r (s.report f)).setPc (next r)) ∨
    (∃ f, (o = .noDivide f ∨ o = .noStore f) ∧ t = (s.report f).setPc (s.pc + 1)) := by
  cases o <;> simp_all [retireTo, eq_comm]

theorem retire_next {α : Type} {s t : State} {o : CoreOutcome α} {store : α → State → State}
    (h : retire s o store = .next t) :
    (∃ r f, o = .done r f ∧ t = (store r (s.report f)).setPc (s.pc + 1)) ∨
    (∃ f, (o = .noDivide f ∨ o = .noStore f) ∧ t = (s.report f).setPc (s.pc + 1)) :=
  retireTo_next h

@[simp] theorem retire_done {α : Type} (s : State) (r : α) (f : Flags) (store : α → State → State) :
    retire s (.done r f) store = .next ((store r (s.report f)).setPc (s.pc + 1)) := rfl

@[simp] theorem retire_noDivide {α : Type} (s : State) (f : Flags) (store : α → State → State) :
    retire s (.noDivide f) store = .next ((s.report f).setPc (s.pc + 1)) := rfl

@[simp] theorem retire_noStore {α : Type} (s : State) (f : Flags) (store : α → State → State) :
    retire s (.noStore f) store = .next ((s.report f).setPc (s.pc + 1)) := rfl

/-! ## The address loop -/

/-- A loop that has answered an address answers it with more fuel. -/
theorem eaLoop_mono {s : State} {n : Nat} {a : AddrSpec} {e : Half} (h : eaLoop s n a = .ok e) :
    eaLoop s (n + 1) a = .ok e := by
  induction n generalizing a with
  | zero => simp [eaLoop] at h
  | succ n ih =>
    rw [eaLoop] at h ⊢
    split at h
    · next hi =>
      simp only [hi, if_true]
      split at h
      · exact ih h
      · cases h
    · next hi => simpa [hi] using h

end Sys2Proof.Machine
end

