-- ==== Sys2Proof/Laws/Operands.lean ====
section
/-! SUPPORT. Each routing group, said once: where its operands answer it is the end of its operation, and where it answers a
next state its operands answered. -/

namespace Sys2Proof.Machine

/-! ## Operands -/

/-- The operand of a mode answers with the immediate word, or with the word at E. -/
theorem withModeOperand_ok {m : Mode} {imm : Half → Word} {s : State} {e : Half} {b : Word} {k : Word → Out}
    (h : if m = .immediate then b = imm e else s.readWord (loc e) = some b) : withModeOperand m imm s e k = k b := by
  cases m <;> simp_all [withModeOperand, withWord]

theorem withModeOperand_inv {m : Mode} {imm : Half → Word} {s t : State} {e : Half} {k : Word → Out}
    (h : withModeOperand m imm s e k = .next t) :
    ∃ b, (if m = .immediate then b = imm e else s.readWord (loc e) = some b) ∧ k b = .next t := by
  cases m
  case immediate => exact ⟨_, rfl, h⟩
  all_goals obtain ⟨b, hb, h⟩ := withWord_next h; exact ⟨b, by simpa using hb, h⟩

/-- The operand of a move mode answers with `0,,E`, the accumulator, or the word at E. -/
theorem withMoveOperand_ok {m : MoveMode} {ac : AcNum} {s : State} {e : Half} {x : Word} {k : Word → Out}
    (h : if m = .immediate then x = immWord e else if m = .memory then x = s.ac ac else s.readWord (loc e) = some x) :
    withMoveOperand m ac s e k = k x := by
  cases m <;> simp_all [withMoveOperand, withWord]

theorem withMoveOperand_inv {m : MoveMode} {ac : AcNum} {s t : State} {e : Half} {k : Word → Out}
    (h : withMoveOperand m ac s e k = .next t) :
    ∃ x, (if m = .immediate then x = immWord e else if m = .memory then x = s.ac ac else s.readWord (loc e) = some x) ∧
      k x = .next t := by
  cases m
  case immediate => exact ⟨_, rfl, h⟩
  case memory => exact ⟨_, rfl, h⟩
  all_goals obtain ⟨b, hb, h⟩ := withWord_next h; exact ⟨b, by simpa using hb, h⟩

theorem withPair_inv {s t : State} {e : Half} {k : Word × Word → Out} (h : withPair s e k = .next t) :
    ∃ d : Word × Word, s.readWord (loc e) = some d.1 ∧ s.readWord (nextLoc s.cfg e) = some d.2 ∧ k d = .next t := by
  obtain ⟨hi, h0, h⟩ := withWord_next h
  obtain ⟨lo, h1, h⟩ := withWord_next h
  exact ⟨(hi, lo), h0, h1, h⟩

/-! ## Groups, where their operands answer -/

variable {s : State} {ac : AcNum} {a : AddrSpec} {e : Half}

theorem arithGroup_ok {m : Mode} {imm : Half → Word} {core : Word → Word → CoreOutcome Word} {b : Word}
    (he : effAddr s a = .ok e) (hb : if m = .immediate then b = imm e else s.readWord (loc e) = some b) :
    arithGroup m imm core ac a s = retire s (core (s.ac ac) b) (storeMode m ac e) := by
  rw [arithGroup, withE_ok he, withModeOperand_ok hb]

theorem pairGroup_ok {m : Mode} {core : Word → Word → CoreOutcome (Word × Word)} {b : Word}
    (he : effAddr s a = .ok e) (hb : if m = .immediate then b = immWord e else s.readWord (loc e) = some b) :
    pairGroup m core ac a s = retire s (core (s.ac ac) b) (storeModePair m ac e) := by
  rw [pairGroup, withE_ok he, withModeOperand_ok hb]

theorem divGroup_ok {m : Mode} {core : Word × Word → Word → CoreOutcome (Word × Word)} {b : Word}
    (he : effAddr s a = .ok e) (hb : if m = .immediate then b = immWord e else s.readWord (loc e) = some b) :
    divGroup m core ac a s = retire s (core (acPair s ac) b) (storeModePair m ac e) := by
  rw [divGroup, withE_ok he, withModeOperand_ok hb]

theorem moveGroup_ok {m : MoveMode} {core : Word → CoreOutcome Word} {x : Word} (he : effAddr s a = .ok e)
    (hx : if m = .immediate then x = immWord e else if m = .memory then x = s.ac ac else s.readWord (loc e) = some x) :
    moveGroup m core ac a s = retire s (core x) (storeMove m ac e) := by
  rw [moveGroup, withE_ok he, withMoveOperand_ok hx]

theorem doubleGroup_ok {core : Word × Word → Word × Word → CoreOutcome (Word × Word)} {d : Word × Word}
    (he : effAddr s a = .ok e) (h0 : s.readWord (loc e) = some d.1) (h1 : s.readWord (nextLoc s.cfg e) = some d.2) :
    doubleGroup core ac a s = retire s (core (acPair s ac) d) (storePair ac) := by
  rw [doubleGroup, withE_ok he, withPair_some h0 h1]

theorem unaryGroup_ok {core : Word → CoreOutcome Word} {b : Word} (he : effAddr s a = .ok e)
    (hb : s.readWord (loc e) = some b) :
    unaryGroup core ac a s = retire s (core b) fun r s' => s'.setAc ac r := by
  rw [unaryGroup, withE_ok he, withWord_some hb]

theorem narrowGroup_ok {core : Word × Word → CoreOutcome Word} {d : Word × Word} (he : effAddr s a = .ok e)
    (h0 : s.readWord (loc e) = some d.1) (h1 : s.readWord (nextLoc s.cfg e) = some d.2) :
    narrowGroup core ac a s = retire s (core d) fun r s' => s'.setAc ac r := by
  rw [narrowGroup, withE_ok he, withPair_some h0 h1]

theorem widenGroup_ok {core : Word → CoreOutcome (Word × Word)} {b : Word} (he : effAddr s a = .ok e)
    (hb : s.readWord (loc e) = some b) : widenGroup core ac a s = retire s (core b) (storePair ac) := by
  rw [widenGroup, withE_ok he, withWord_some hb]

theorem pairFromMemGroup_ok {core : Word × Word → CoreOutcome (Word × Word)} {d : Word × Word} (he : effAddr s a = .ok e)
    (h0 : s.readWord (loc e) = some d.1) (h1 : s.readWord (nextLoc s.cfg e) = some d.2) :
    pairFromMemGroup core ac a s = retire s (core d) (storePair ac) := by
  rw [pairFromMemGroup, withE_ok he, withPair_some h0 h1]

theorem countGroup_ok {core : Word → Int → CoreOutcome Word} (he : effAddr s a = .ok e) :
    countGroup core ac a s = retire s (core (s.ac ac) (countOf e)) fun r s' => s'.setAc ac r := by
  rw [countGroup, withE_ok he]

theorem countPairGroup_ok {core : Word × Word → Int → CoreOutcome (Word × Word)} (he : effAddr s a = .ok e) :
    countPairGroup core ac a s = retire s (core (acPair s ac) (countOf e)) (storePair ac) := by
  rw [countPairGroup, withE_ok he]

/-! ## Groups, where they answer a next state -/

variable {t : State}

theorem arithGroup_next {m : Mode} {imm : Half → Word} {core : Word → Word → CoreOutcome Word}
    (h : arithGroup m imm core ac a s = .next t) :
    ∃ e b, effAddr s a = .ok e ∧ (if m = .immediate then b = imm e else s.readWord (loc e) = some b) ∧
      retire s (core (s.ac ac) b) (storeMode m ac e) = .next t := by
  obtain ⟨e, he, h⟩ := withE_next h
  obtain ⟨b, hb, h⟩ := withModeOperand_inv h
  exact ⟨e, b, he, hb, h⟩

theorem pairGroup_next {m : Mode} {core : Word → Word → CoreOutcome (Word × Word)}
    (h : pairGroup m core ac a s = .next t) :
    ∃ e b, effAddr s a = .ok e ∧ (if m = .immediate then b = immWord e else s.readWord (loc e) = some b) ∧
      retire s (core (s.ac ac) b) (storeModePair m ac e) = .next t := by
  obtain ⟨e, he, h⟩ := withE_next h
  obtain ⟨b, hb, h⟩ := withModeOperand_inv h
  exact ⟨e, b, he, hb, h⟩

theorem divGroup_next {m : Mode} {core : Word × Word → Word → CoreOutcome (Word × Word)}
    (h : divGroup m core ac a s = .next t) :
    ∃ e b, effAddr s a = .ok e ∧ (if m = .immediate then b = immWord e else s.readWord (loc e) = some b) ∧
      retire s (core (acPair s ac) b) (storeModePair m ac e) = .next t := by
  obtain ⟨e, he, h⟩ := withE_next h
  obtain ⟨b, hb, h⟩ := withModeOperand_inv h
  exact ⟨e, b, he, hb, h⟩

theorem moveGroup_next {m : MoveMode} {core : Word → CoreOutcome Word} (h : moveGroup m core ac a s = .next t) :
    ∃ e x, effAddr s a = .ok e ∧
      (if m = .immediate then x = immWord e else if m = .memory then x = s.ac ac else s.readWord (loc e) = some x) ∧
      retire s (core x) (storeMove m ac e) = .next t := by
  obtain ⟨e, he, h⟩ := withE_next h
  obtain ⟨x, hx, h⟩ := withMoveOperand_inv h
  exact ⟨e, x, he, hx, h⟩

theorem jumpGroup_next {c : Cond} {core : Word → CoreOutcome Word} (h : jumpGroup c core ac a s = .next t) :
    ∃ e, effAddr s a = .ok e ∧ retireTo s (core (s.ac ac)) (fun r s' => s'.setAc ac r)
      (fun r => if c.holds (s36 r) then e else s.pc + 1) = .next t := withE_next h

theorem skipGroup_next {c : Cond} {core : Word → CoreOutcome Word} (h : skipGroup c core ac a s = .next t) :
    ∃ e x, effAddr s a = .ok e ∧ s.readWord (loc e) = some x ∧ retireTo s (core x) (storeSelf ac e)
      (fun r => if c.holds (s36 r) then s.pc + 2 else s.pc + 1) = .next t := by
  obtain ⟨e, he, h⟩ := withE_next h
  obtain ⟨x, hx, h⟩ := withWord_next h
  exact ⟨e, x, he, hx, h⟩

theorem doubleGroup_next {core : Word × Word → Word × Word → CoreOutcome (Word × Word)}
    (h : doubleGroup core ac a s = .next t) :
    ∃ e d, effAddr s a = .ok e ∧ retire s (core (acPair s ac) d) (storePair ac) = .next t := by
  obtain ⟨e, he, h⟩ := withE_next h
  obtain ⟨d, _, _, h⟩ := withPair_inv h
  exact ⟨e, d, he, h⟩

theorem countGroup_next {core : Word → Int → CoreOutcome Word} (h : countGroup core ac a s = .next t) :
    ∃ e, effAddr s a = .ok e ∧
      retire s (core (s.ac ac) (countOf e)) (fun r s' => s'.setAc ac r) = .next t := withE_next h

theorem countPairGroup_next {core : Word × Word → Int → CoreOutcome (Word × Word)}
    (h : countPairGroup core ac a s = .next t) :
    ∃ e, effAddr s a = .ok e ∧ retire s (core (acPair s ac) (countOf e)) (storePair ac) = .next t := withE_next h

theorem unaryGroup_next {core : Word → CoreOutcome Word} (h : unaryGroup core ac a s = .next t) :
    ∃ b, retire s (core b) (fun r s' => s'.setAc ac r) = .next t := by
  obtain ⟨e, he, h⟩ := withE_next h
  obtain ⟨b, _, h⟩ := withWord_next h
  exact ⟨b, h⟩

theorem narrowGroup_next {core : Word × Word → CoreOutcome Word} (h : narrowGroup core ac a s = .next t) :
    ∃ d, retire s (core d) (fun r s' => s'.setAc ac r) = .next t := by
  obtain ⟨e, he, h⟩ := withE_next h
  obtain ⟨d, _, _, h⟩ := withPair_inv h
  exact ⟨d, h⟩

theorem widenGroup_next {core : Word → CoreOutcome (Word × Word)} (h : widenGroup core ac a s = .next t) :
    ∃ b, retire s (core b) (storePair ac) = .next t := by
  obtain ⟨e, he, h⟩ := withE_next h
  obtain ⟨b, _, h⟩ := withWord_next h
  exact ⟨b, h⟩

theorem pairFromMemGroup_next {core : Word × Word → CoreOutcome (Word × Word)}
    (h : pairFromMemGroup core ac a s = .next t) : ∃ d, retire s (core d) (storePair ac) = .next t := by
  obtain ⟨e, he, h⟩ := withE_next h
  obtain ⟨d, _, _, h⟩ := withPair_inv h
  exact ⟨d, h⟩

theorem ifGfloat_next {op : BitVec 9} {xop : Option (BitVec 9)} {k : State → Out} (h : ifGfloat op xop s k = .next t) :
    s.cfg.hasGfloat = true ∧ k s = .next t := by
  unfold ifGfloat at h
  split at h
  · exact ⟨‹_›, h⟩
  · cases h

/-! ## The byte group -/

theorem byteGroup_next {core : State → Word → Except MemInfo Word → CoreOutcome ByteResult}
    (h : byteGroup core ac a s = .next t) :
    ∃ e w0, effAddr s a = .ok e ∧ s.readWord (loc e) = some w0 ∧
      retire s (core s w0 (secondWord s e)) (storeByte ac e) = .next t := by
  obtain ⟨e, he, h⟩ := withE_next h
  obtain ⟨w0, hw, h⟩ := withWord_next h
  exact ⟨e, w0, he, hw, h⟩

theorem byteGroup_ok {core : State → Word → Except MemInfo Word → CoreOutcome ByteResult} {w0 : Word}
    (he : effAddr s a = .ok e) (hw : s.readWord (loc e) = some w0) :
    byteGroup core ac a s = retire s (core s w0 (secondWord s e)) (storeByte ac e) := by
  rw [byteGroup, withE_ok he, withWord_some hw]

/-- A pointer that is Done, or no-divides, decoded and did not trap. -/
theorem withPointer_done {α : Type} {cfg : Params} {w0 : Word} {m1 : Except MemInfo Word} {k : Bp → CoreOutcome α}
    {r : α} {f : Flags} (h : withPointer cfg w0 m1 k = .done r f) :
    ∃ bp, canon cfg w0 m1 = .ok bp ∧ bpTraps cfg.bpTrap bp = false ∧ k bp = .done r f := by
  unfold withPointer at h
  split at h
  · cases h
  · next bp hbp =>
    split at h
    · cases h
    · next ht => exact ⟨bp, hbp, by simpa using ht, h⟩

theorem withPointer_ok {α : Type} {cfg : Params} {w0 : Word} {m1 : Except MemInfo Word} {k : Bp → CoreOutcome α}
    {bp : Bp} (h : canon cfg w0 m1 = .ok bp) (ht : bpTraps cfg.bpTrap bp = false) :
    withPointer cfg w0 m1 k = k bp := by simp [withPointer, h, ht]

theorem withByteWord_ok {α : Type} {bp : Bp} {k : MemAddr → Word → CoreOutcome α} {x : MemAddr} {w : Word}
    (hx : byteAddr s bp = .ok x) (hw : s.readWord x = some w) : withByteWord s bp k = k x w := by
  simp [withByteWord, hx, hw]

theorem withByteWord_done {α : Type} {bp : Bp} {k : MemAddr → Word → CoreOutcome α} {r : α} {f : Flags}
    (h : withByteWord s bp k = .done r f) :
    ∃ x w, byteAddr s bp = .ok x ∧ s.readWord x = some w ∧ k x w = .done r f := by
  unfold withByteWord at h
  split at h
  · cases h
  · cases h
  · split at h
    · cases h
    · exact ⟨_, _, ‹_›, ‹_›, h⟩

/-- Where `mem.resolve` never answers, neither does the operation (R711). -/
theorem withByteWord_cycle {α : Type} {bp : Bp} {k : MemAddr → Word → CoreOutcome α}
    (hx : byteAddr s bp = .error .cycle) : withByteWord s bp k = .noAnswer := by simp [withByteWord, hx]

/-- R508: without indirection the global form answers Y, or Y plus the index register. -/
theorem resolveGlobal_direct (x : BitVec 4) (y : MemAddr) :
    resolveGlobal s false x y = .ok (if x = 0 then y else y + (s.ac x).setWidth 30) := by
  unfold resolveGlobal
  rw [globalLoop.eq_def]
  simp

/-- The core's write goes on exactly where the collaborator does not fail it (R105). -/
theorem withByteWrite_ok {α : Type} {x : MemAddr} {o : CoreOutcome α} (h : s.writeFails x = false) :
    withByteWrite s x o = o := by simp [withByteWrite, h]

theorem withByteWrite_fails {α : Type} {x : MemAddr} {o : CoreOutcome α} (h : s.writeFails x = true) :
    withByteWrite s x o = .memFault (.writeRefused x) := by simp [withByteWrite, h]

theorem withByteWrite_done {α : Type} {x : MemAddr} {o : CoreOutcome α} {r : α} {f : Flags}
    (h : withByteWrite s x o = .done r f) : s.writeFails x = false ∧ o = .done r f := by
  unfold withByteWrite at h
  split at h
  · cases h
  · next hf => exact ⟨by simpa using hf, h⟩

end Sys2Proof.Machine
end

