-- ==== Sys2Proof/Laws/PerInstr.lean ====
section
/-! SUPPORT. One lemma for each instruction: the opcode map of the decoder, looked up at the opcode the encoder gives the
instruction, makes that instruction of its fields (R150-R153). The round trips of decoding and encoding rest on it. -/

namespace Sys2Proof.Laws.DecodeRow

/-- R153: the decoder's row at the instruction's own opcode makes the instruction; for a basic word the opcode is not that of
the EXTEND form. -/
def Statement (i : Instr) : Prop :=
  i.wf = true →
    match i.layout with
    | .basic op ac a => op ≠ extendOp ∧ ∃ make, basicRows.lookup op.toNat = some make ∧ make ac a = i
    | .extend ac a0 xop xac a1 => ∃ make, extendRows.lookup xop.toNat = some make ∧ make ac a0 xac a1 = i

theorem add (ac a) : Statement (.add ac a) := fun _ => ⟨by decide, _, rfl, rfl⟩
theorem addi (ac a) : Statement (.addi ac a) := fun _ => ⟨by decide, _, rfl, rfl⟩
theorem addm (ac a) : Statement (.addm ac a) := fun _ => ⟨by decide, _, rfl, rfl⟩
theorem addb (ac a) : Statement (.addb ac a) := fun _ => ⟨by decide, _, rfl, rfl⟩
theorem sub (ac a) : Statement (.sub ac a) := fun _ => ⟨by decide, _, rfl, rfl⟩
theorem subi (ac a) : Statement (.subi ac a) := fun _ => ⟨by decide, _, rfl, rfl⟩
theorem subm (ac a) : Statement (.subm ac a) := fun _ => ⟨by decide, _, rfl, rfl⟩
theorem subb (ac a) : Statement (.subb ac a) := fun _ => ⟨by decide, _, rfl, rfl⟩
theorem movn (ac a) : Statement (.movn ac a) := fun _ => ⟨by decide, _, rfl, rfl⟩
theorem movni (ac a) : Statement (.movni ac a) := fun _ => ⟨by decide, _, rfl, rfl⟩
theorem movnm (ac a) : Statement (.movnm ac a) := fun _ => ⟨by decide, _, rfl, rfl⟩
theorem movns (ac a) : Statement (.movns ac a) := fun _ => ⟨by decide, _, rfl, rfl⟩
theorem movm (ac a) : Statement (.movm ac a) := fun _ => ⟨by decide, _, rfl, rfl⟩
theorem movmi (ac a) : Statement (.movmi ac a) := fun _ => ⟨by decide, _, rfl, rfl⟩
theorem movmm (ac a) : Statement (.movmm ac a) := fun _ => ⟨by decide, _, rfl, rfl⟩
theorem movms (ac a) : Statement (.movms ac a) := fun _ => ⟨by decide, _, rfl, rfl⟩
theorem aoj (ac a) : Statement (.aoj ac a) := fun _ => ⟨by decide, _, rfl, rfl⟩
theorem aojl (ac a) : Statement (.aojl ac a) := fun _ => ⟨by decide, _, rfl, rfl⟩
theorem aoje (ac a) : Statement (.aoje ac a) := fun _ => ⟨by decide, _, rfl, rfl⟩
theorem aojle (ac a) : Statement (.aojle ac a) := fun _ => ⟨by decide, _, rfl, rfl⟩
theorem aoja (ac a) : Statement (.aoja ac a) := fun _ => ⟨by decide, _, rfl, rfl⟩
theorem aojge (ac a) : Statement (.aojge ac a) := fun _ => ⟨by decide, _, rfl, rfl⟩
theorem aojn (ac a) : Statement (.aojn ac a) := fun _ => ⟨by decide, _, rfl, rfl⟩
theorem aojg (ac a) : Statement (.aojg ac a) := fun _ => ⟨by decide, _, rfl, rfl⟩
theorem aos (ac a) : Statement (.aos ac a) := fun _ => ⟨by decide, _, rfl, rfl⟩
theorem aosl (ac a) : Statement (.aosl ac a) := fun _ => ⟨by decide, _, rfl, rfl⟩
theorem aose (ac a) : Statement (.aose ac a) := fun _ => ⟨by decide, _, rfl, rfl⟩
theorem aosle (ac a) : Statement (.aosle ac a) := fun _ => ⟨by decide, _, rfl, rfl⟩
theorem aosa (ac a) : Statement (.aosa ac a) := fun _ => ⟨by decide, _, rfl, rfl⟩
theorem aosge (ac a) : Statement (.aosge ac a) := fun _ => ⟨by decide, _, rfl, rfl⟩
theorem aosn (ac a) : Statement (.aosn ac a) := fun _ => ⟨by decide, _, rfl, rfl⟩
theorem aosg (ac a) : Statement (.aosg ac a) := fun _ => ⟨by decide, _, rfl, rfl⟩
theorem soj (ac a) : Statement (.soj ac a) := fun _ => ⟨by decide, _, rfl, rfl⟩
theorem sojl (ac a) : Statement (.sojl ac a) := fun _ => ⟨by decide, _, rfl, rfl⟩
theorem soje (ac a) : Statement (.soje ac a) := fun _ => ⟨by decide, _, rfl, rfl⟩
theorem sojle (ac a) : Statement (.sojle ac a) := fun _ => ⟨by decide, _, rfl, rfl⟩
theorem soja (ac a) : Statement (.soja ac a) := fun _ => ⟨by decide, _, rfl, rfl⟩
theorem sojge (ac a) : Statement (.sojge ac a) := fun _ => ⟨by decide, _, rfl, rfl⟩
theorem sojn (ac a) : Statement (.sojn ac a) := fun _ => ⟨by decide, _, rfl, rfl⟩
theorem sojg (ac a) : Statement (.sojg ac a) := fun _ => ⟨by decide, _, rfl, rfl⟩
theorem sos (ac a) : Statement (.sos ac a) := fun _ => ⟨by decide, _, rfl, rfl⟩
theorem sosl (ac a) : Statement (.sosl ac a) := fun _ => ⟨by decide, _, rfl, rfl⟩
theorem sose (ac a) : Statement (.sose ac a) := fun _ => ⟨by decide, _, rfl, rfl⟩
theorem sosle (ac a) : Statement (.sosle ac a) := fun _ => ⟨by decide, _, rfl, rfl⟩
theorem sosa (ac a) : Statement (.sosa ac a) := fun _ => ⟨by decide, _, rfl, rfl⟩
theorem sosge (ac a) : Statement (.sosge ac a) := fun _ => ⟨by decide, _, rfl, rfl⟩
theorem sosn (ac a) : Statement (.sosn ac a) := fun _ => ⟨by decide, _, rfl, rfl⟩
theorem sosg (ac a) : Statement (.sosg ac a) := fun _ => ⟨by decide, _, rfl, rfl⟩
theorem dadd (ac a) : Statement (.dadd ac a) := fun _ => ⟨by decide, _, rfl, rfl⟩
theorem dsub (ac a) : Statement (.dsub ac a) := fun _ => ⟨by decide, _, rfl, rfl⟩
theorem dmul (ac a) : Statement (.dmul ac a) := fun _ => ⟨by decide, _, rfl, rfl⟩
theorem ddiv (ac a) : Statement (.ddiv ac a) := fun _ => ⟨by decide, _, rfl, rfl⟩
theorem dmovn (ac a) : Statement (.dmovn ac a) := fun _ => ⟨by decide, _, rfl, rfl⟩
theorem dmovnm (ac a) : Statement (.dmovnm ac a) := fun _ => ⟨by decide, _, rfl, rfl⟩
theorem imul (ac a) : Statement (.imul ac a) := fun _ => ⟨by decide, _, rfl, rfl⟩
theorem imuli (ac a) : Statement (.imuli ac a) := fun _ => ⟨by decide, _, rfl, rfl⟩
theorem imulm (ac a) : Statement (.imulm ac a) := fun _ => ⟨by decide, _, rfl, rfl⟩
theorem imulb (ac a) : Statement (.imulb ac a) := fun _ => ⟨by decide, _, rfl, rfl⟩
theorem mul (ac a) : Statement (.mul ac a) := fun _ => ⟨by decide, _, rfl, rfl⟩
theorem muli (ac a) : Statement (.muli ac a) := fun _ => ⟨by decide, _, rfl, rfl⟩
theorem mulm (ac a) : Statement (.mulm ac a) := fun _ => ⟨by decide, _, rfl, rfl⟩
theorem mulb (ac a) : Statement (.mulb ac a) := fun _ => ⟨by decide, _, rfl, rfl⟩
theorem idiv (ac a) : Statement (.idiv ac a) := fun _ => ⟨by decide, _, rfl, rfl⟩
theorem idivi (ac a) : Statement (.idivi ac a) := fun _ => ⟨by decide, _, rfl, rfl⟩
theorem idivm (ac a) : Statement (.idivm ac a) := fun _ => ⟨by decide, _, rfl, rfl⟩
theorem idivb (ac a) : Statement (.idivb ac a) := fun _ => ⟨by decide, _, rfl, rfl⟩
theorem div (ac a) : Statement (.div ac a) := fun _ => ⟨by decide, _, rfl, rfl⟩
theorem divi (ac a) : Statement (.divi ac a) := fun _ => ⟨by decide, _, rfl, rfl⟩
theorem divm (ac a) : Statement (.divm ac a) := fun _ => ⟨by decide, _, rfl, rfl⟩
theorem divb (ac a) : Statement (.divb ac a) := fun _ => ⟨by decide, _, rfl, rfl⟩
theorem setz (ac a) : Statement (.setz ac a) := fun _ => ⟨by decide, _, rfl, rfl⟩
theorem setzi (ac a) : Statement (.setzi ac a) := fun _ => ⟨by decide, _, rfl, rfl⟩
theorem setzm (ac a) : Statement (.setzm ac a) := fun _ => ⟨by decide, _, rfl, rfl⟩
theorem setzb (ac a) : Statement (.setzb ac a) := fun _ => ⟨by decide, _, rfl, rfl⟩
theorem and (ac a) : Statement (.and ac a) := fun _ => ⟨by decide, _, rfl, rfl⟩
theorem andi (ac a) : Statement (.andi ac a) := fun _ => ⟨by decide, _, rfl, rfl⟩
theorem andm (ac a) : Statement (.andm ac a) := fun _ => ⟨by decide, _, rfl, rfl⟩
theorem andb (ac a) : Statement (.andb ac a) := fun _ => ⟨by decide, _, rfl, rfl⟩
theorem andca (ac a) : Statement (.andca ac a) := fun _ => ⟨by decide, _, rfl, rfl⟩
theorem andcai (ac a) : Statement (.andcai ac a) := fun _ => ⟨by decide, _, rfl, rfl⟩
theorem andcam (ac a) : Statement (.andcam ac a) := fun _ => ⟨by decide, _, rfl, rfl⟩
theorem andcab (ac a) : Statement (.andcab ac a) := fun _ => ⟨by decide, _, rfl, rfl⟩
theorem setm (ac a) : Statement (.setm ac a) := fun _ => ⟨by decide, _, rfl, rfl⟩
theorem setmi (ac a) : Statement (.setmi ac a) := fun _ => ⟨by decide, _, rfl, rfl⟩
theorem setmm (ac a) : Statement (.setmm ac a) := fun _ => ⟨by decide, _, rfl, rfl⟩
theorem setmb (ac a) : Statement (.setmb ac a) := fun _ => ⟨by decide, _, rfl, rfl⟩
theorem andcm (ac a) : Statement (.andcm ac a) := fun _ => ⟨by decide, _, rfl, rfl⟩
theorem andcmi (ac a) : Statement (.andcmi ac a) := fun _ => ⟨by decide, _, rfl, rfl⟩
theorem andcmm (ac a) : Statement (.andcmm ac a) := fun _ => ⟨by decide, _, rfl, rfl⟩
theorem andcmb (ac a) : Statement (.andcmb ac a) := fun _ => ⟨by decide, _, rfl, rfl⟩
theorem seta (ac a) : Statement (.seta ac a) := fun _ => ⟨by decide, _, rfl, rfl⟩
theorem setai (ac a) : Statement (.setai ac a) := fun _ => ⟨by decide, _, rfl, rfl⟩
theorem setam (ac a) : Statement (.setam ac a) := fun _ => ⟨by decide, _, rfl, rfl⟩
theorem setab (ac a) : Statement (.setab ac a) := fun _ => ⟨by decide, _, rfl, rfl⟩
theorem xor (ac a) : Statement (.xor ac a) := fun _ => ⟨by decide, _, rfl, rfl⟩
theorem xori (ac a) : Statement (.xori ac a) := fun _ => ⟨by decide, _, rfl, rfl⟩
theorem xorm (ac a) : Statement (.xorm ac a) := fun _ => ⟨by decide, _, rfl, rfl⟩
theorem xorb (ac a) : Statement (.xorb ac a) := fun _ => ⟨by decide, _, rfl, rfl⟩
theorem ior (ac a) : Statement (.ior ac a) := fun _ => ⟨by decide, _, rfl, rfl⟩
theorem iori (ac a) : Statement (.iori ac a) := fun _ => ⟨by decide, _, rfl, rfl⟩
theorem iorm (ac a) : Statement (.iorm ac a) := fun _ => ⟨by decide, _, rfl, rfl⟩
theorem iorb (ac a) : Statement (.iorb ac a) := fun _ => ⟨by decide, _, rfl, rfl⟩
theorem andcb (ac a) : Statement (.andcb ac a) := fun _ => ⟨by decide, _, rfl, rfl⟩
theorem andcbi (ac a) : Statement (.andcbi ac a) := fun _ => ⟨by decide, _, rfl, rfl⟩
theorem andcbm (ac a) : Statement (.andcbm ac a) := fun _ => ⟨by decide, _, rfl, rfl⟩
theorem andcbb (ac a) : Statement (.andcbb ac a) := fun _ => ⟨by decide, _, rfl, rfl⟩
theorem eqv (ac a) : Statement (.eqv ac a) := fun _ => ⟨by decide, _, rfl, rfl⟩
theorem eqvi (ac a) : Statement (.eqvi ac a) := fun _ => ⟨by decide, _, rfl, rfl⟩
theorem eqvm (ac a) : Statement (.eqvm ac a) := fun _ => ⟨by decide, _, rfl, rfl⟩
theorem eqvb (ac a) : Statement (.eqvb ac a) := fun _ => ⟨by decide, _, rfl, rfl⟩
theorem setca (ac a) : Statement (.setca ac a) := fun _ => ⟨by decide, _, rfl, rfl⟩
theorem setcai (ac a) : Statement (.setcai ac a) := fun _ => ⟨by decide, _, rfl, rfl⟩
theorem setcam (ac a) : Statement (.setcam ac a) := fun _ => ⟨by decide, _, rfl, rfl⟩
theorem setcab (ac a) : Statement (.setcab ac a) := fun _ => ⟨by decide, _, rfl, rfl⟩
theorem orca (ac a) : Statement (.orca ac a) := fun _ => ⟨by decide, _, rfl, rfl⟩
theorem orcai (ac a) : Statement (.orcai ac a) := fun _ => ⟨by decide, _, rfl, rfl⟩
theorem orcam (ac a) : Statement (.orcam ac a) := fun _ => ⟨by decide, _, rfl, rfl⟩
theorem orcab (ac a) : Statement (.orcab ac a) := fun _ => ⟨by decide, _, rfl, rfl⟩
theorem setcm (ac a) : Statement (.setcm ac a) := fun _ => ⟨by decide, _, rfl, rfl⟩
theorem setcmi (ac a) : Statement (.setcmi ac a) := fun _ => ⟨by decide, _, rfl, rfl⟩
theorem setcmm (ac a) : Statement (.setcmm ac a) := fun _ => ⟨by decide, _, rfl, rfl⟩
theorem setcmb (ac a) : Statement (.setcmb ac a) := fun _ => ⟨by decide, _, rfl, rfl⟩
theorem orcm (ac a) : Statement (.orcm ac a) := fun _ => ⟨by decide, _, rfl, rfl⟩
theorem orcmi (ac a) : Statement (.orcmi ac a) := fun _ => ⟨by decide, _, rfl, rfl⟩
theorem orcmm (ac a) : Statement (.orcmm ac a) := fun _ => ⟨by decide, _, rfl, rfl⟩
theorem orcmb (ac a) : Statement (.orcmb ac a) := fun _ => ⟨by decide, _, rfl, rfl⟩
theorem orcb (ac a) : Statement (.orcb ac a) := fun _ => ⟨by decide, _, rfl, rfl⟩
theorem orcbi (ac a) : Statement (.orcbi ac a) := fun _ => ⟨by decide, _, rfl, rfl⟩
theorem orcbm (ac a) : Statement (.orcbm ac a) := fun _ => ⟨by decide, _, rfl, rfl⟩
theorem orcbb (ac a) : Statement (.orcbb ac a) := fun _ => ⟨by decide, _, rfl, rfl⟩
theorem seto (ac a) : Statement (.seto ac a) := fun _ => ⟨by decide, _, rfl, rfl⟩
theorem setoi (ac a) : Statement (.setoi ac a) := fun _ => ⟨by decide, _, rfl, rfl⟩
theorem setom (ac a) : Statement (.setom ac a) := fun _ => ⟨by decide, _, rfl, rfl⟩
theorem setob (ac a) : Statement (.setob ac a) := fun _ => ⟨by decide, _, rfl, rfl⟩
theorem ash (ac a) : Statement (.ash ac a) := fun _ => ⟨by decide, _, rfl, rfl⟩
theorem rot (ac a) : Statement (.rot ac a) := fun _ => ⟨by decide, _, rfl, rfl⟩
theorem lsh (ac a) : Statement (.lsh ac a) := fun _ => ⟨by decide, _, rfl, rfl⟩
theorem ashc (ac a) : Statement (.ashc ac a) := fun _ => ⟨by decide, _, rfl, rfl⟩
theorem rotc (ac a) : Statement (.rotc ac a) := fun _ => ⟨by decide, _, rfl, rfl⟩
theorem lshc (ac a) : Statement (.lshc ac a) := fun _ => ⟨by decide, _, rfl, rfl⟩
theorem fad (ac a) : Statement (.fad ac a) := fun _ => ⟨by decide, _, rfl, rfl⟩
theorem fadm (ac a) : Statement (.fadm ac a) := fun _ => ⟨by decide, _, rfl, rfl⟩
theorem fadb (ac a) : Statement (.fadb ac a) := fun _ => ⟨by decide, _, rfl, rfl⟩
theorem fadr (ac a) : Statement (.fadr ac a) := fun _ => ⟨by decide, _, rfl, rfl⟩
theorem fadri (ac a) : Statement (.fadri ac a) := fun _ => ⟨by decide, _, rfl, rfl⟩
theorem fadrm (ac a) : Statement (.fadrm ac a) := fun _ => ⟨by decide, _, rfl, rfl⟩
theorem fadrb (ac a) : Statement (.fadrb ac a) := fun _ => ⟨by decide, _, rfl, rfl⟩
theorem fsb (ac a) : Statement (.fsb ac a) := fun _ => ⟨by decide, _, rfl, rfl⟩
theorem fsbm (ac a) : Statement (.fsbm ac a) := fun _ => ⟨by decide, _, rfl, rfl⟩
theorem fsbb (ac a) : Statement (.fsbb ac a) := fun _ => ⟨by decide, _, rfl, rfl⟩
theorem fsbr (ac a) : Statement (.fsbr ac a) := fun _ => ⟨by decide, _, rfl, rfl⟩
theorem fsbri (ac a) : Statement (.fsbri ac a) := fun _ => ⟨by decide, _, rfl, rfl⟩
theorem fsbrm (ac a) : Statement (.fsbrm ac a) := fun _ => ⟨by decide, _, rfl, rfl⟩
theorem fsbrb (ac a) : Statement (.fsbrb ac a) := fun _ => ⟨by decide, _, rfl, rfl⟩
theorem fmp (ac a) : Statement (.fmp ac a) := fun _ => ⟨by decide, _, rfl, rfl⟩
theorem fmpm (ac a) : Statement (.fmpm ac a) := fun _ => ⟨by decide, _, rfl, rfl⟩
theorem fmpb (ac a) : Statement (.fmpb ac a) := fun _ => ⟨by decide, _, rfl, rfl⟩
theorem fmpr (ac a) : Statement (.fmpr ac a) := fun _ => ⟨by decide, _, rfl, rfl⟩
theorem fmpri (ac a) : Statement (.fmpri ac a) := fun _ => ⟨by decide, _, rfl, rfl⟩
theorem fmprm (ac a) : Statement (.fmprm ac a) := fun _ => ⟨by decide, _, rfl, rfl⟩
theorem fmprb (ac a) : Statement (.fmprb ac a) := fun _ => ⟨by decide, _, rfl, rfl⟩
theorem fdv (ac a) : Statement (.fdv ac a) := fun _ => ⟨by decide, _, rfl, rfl⟩
theorem fdvm (ac a) : Statement (.fdvm ac a) := fun _ => ⟨by decide, _, rfl, rfl⟩
theorem fdvb (ac a) : Statement (.fdvb ac a) := fun _ => ⟨by decide, _, rfl, rfl⟩
theorem fdvr (ac a) : Statement (.fdvr ac a) := fun _ => ⟨by decide, _, rfl, rfl⟩
theorem fdvri (ac a) : Statement (.fdvri ac a) := fun _ => ⟨by decide, _, rfl, rfl⟩
theorem fdvrm (ac a) : Statement (.fdvrm ac a) := fun _ => ⟨by decide, _, rfl, rfl⟩
theorem fdvrb (ac a) : Statement (.fdvrb ac a) := fun _ => ⟨by decide, _, rfl, rfl⟩
theorem ufa (ac a) : Statement (.ufa ac a) := fun _ => ⟨by decide, _, rfl, rfl⟩
theorem fsc (ac a) : Statement (.fsc ac a) := fun _ => ⟨by decide, _, rfl, rfl⟩
theorem fix (ac a) : Statement (.fix ac a) := fun _ => ⟨by decide, _, rfl, rfl⟩
theorem fixr (ac a) : Statement (.fixr ac a) := fun _ => ⟨by decide, _, rfl, rfl⟩
theorem fltr (ac a) : Statement (.fltr ac a) := fun _ => ⟨by decide, _, rfl, rfl⟩
theorem dfad (ac a) : Statement (.dfad ac a) := fun _ => ⟨by decide, _, rfl, rfl⟩
theorem dfsb (ac a) : Statement (.dfsb ac a) := fun _ => ⟨by decide, _, rfl, rfl⟩
theorem dfmp (ac a) : Statement (.dfmp ac a) := fun _ => ⟨by decide, _, rfl, rfl⟩
theorem dfdv (ac a) : Statement (.dfdv ac a) := fun _ => ⟨by decide, _, rfl, rfl⟩
theorem gfad (ac a) : Statement (.gfad ac a) := fun _ => ⟨by decide, _, rfl, rfl⟩
theorem gfsb (ac a) : Statement (.gfsb ac a) := fun _ => ⟨by decide, _, rfl, rfl⟩
theorem gfmp (ac a) : Statement (.gfmp ac a) := fun _ => ⟨by decide, _, rfl, rfl⟩
theorem gfdv (ac a) : Statement (.gfdv ac a) := fun _ => ⟨by decide, _, rfl, rfl⟩
theorem gsngl (ac a xac b) : Statement (.gsngl ac a xac b) := fun _ => ⟨_, rfl, rfl⟩
theorem gdble (ac a xac b) : Statement (.gdble ac a xac b) := fun _ => ⟨_, rfl, rfl⟩
theorem dgfix (ac a xac b) : Statement (.dgfix ac a xac b) := fun _ => ⟨_, rfl, rfl⟩
theorem gfix (ac a xac b) : Statement (.gfix ac a xac b) := fun _ => ⟨_, rfl, rfl⟩
theorem dgfixr (ac a xac b) : Statement (.dgfixr ac a xac b) := fun _ => ⟨_, rfl, rfl⟩
theorem gfixr (ac a xac b) : Statement (.gfixr ac a xac b) := fun _ => ⟨_, rfl, rfl⟩
theorem dgfltr (ac a xac b) : Statement (.dgfltr ac a xac b) := fun _ => ⟨_, rfl, rfl⟩
theorem gfltr (ac a xac b) : Statement (.gfltr ac a xac b) := fun _ => ⟨_, rfl, rfl⟩
theorem gfsc (ac a xac b) : Statement (.gfsc ac a xac b) := fun _ => ⟨_, rfl, rfl⟩
theorem ibp (a) : Statement (.ibp a) := fun _ => ⟨by decide, _, rfl, if_pos rfl⟩
theorem adjbp (ac a) : Statement (.adjbp ac a) := fun h => ⟨by decide, _, rfl, if_neg (by simpa [Instr.wf] using h)⟩
theorem ildb (ac a) : Statement (.ildb ac a) := fun _ => ⟨by decide, _, rfl, rfl⟩
theorem ldb (ac a) : Statement (.ldb ac a) := fun _ => ⟨by decide, _, rfl, rfl⟩
theorem idpb (ac a) : Statement (.idpb ac a) := fun _ => ⟨by decide, _, rfl, rfl⟩
theorem dpb (ac a) : Statement (.dpb ac a) := fun _ => ⟨by decide, _, rfl, rfl⟩

end Sys2Proof.Laws.DecodeRow
end

