-- ==== Sys2Proof/Laws/Step.lean ====
section
/-! SUPPORT. What a step can do, said once (70_reset_and_hazards.md R712), and the induction over it packaged once: a property
that the primitive stores keep is kept by every instruction. -/

namespace Sys2Proof.Machine

/-- A property of states that each primitive store keeps: the flag report, the PC, an accumulator, a word of the space. -/
structure Keep (P : State → Prop) : Prop where
  rep : ∀ s f, P s → P (s.report f)
  pc : ∀ s p, P s → P (s.setPc p)
  ac : ∀ s n w, P s → P (s.setAc n w)
  wr : ∀ s x w, P s → x.toNat < Params.space s.cfg → P (s.writeWord x w)

/-- The canonical form of memory is such a property. -/
theorem wfKeep : Keep (fun s => s.wf = true) :=
  ⟨fun _ _ h => h, fun _ _ h => h, fun _ _ _ h => h, fun _ _ _ h hx => State.wf_writeWord hx h⟩

/-- So is having given parameters, a given run state and given failing addresses: no instruction writes them. -/
theorem cfgRunKeep (c : Params) (r : RunState) (l : List Nat) :
    Keep (fun s => s.cfg = c ∧ s.run = r ∧ s.writeFaults = l) :=
  ⟨fun _ _ h => h, fun _ _ h => h, fun _ _ _ h => h, fun _ _ _ h _ => by simpa using h⟩

variable {P : State → Prop} (K : Keep P)

include K in
theorem keep_retireTo {α : Type} {s t : State} {o : CoreOutcome α} {store : α → State → State} {next}
    (hs : P s) (hst : ∀ r f u, o = .done r f → P u → u.cfg = s.cfg → P (store r u)) (h : retireTo s o store next = .next t) : P t := by
  rcases retireTo_next h with ⟨r, f, ho, rfl⟩ | ⟨f, _, rfl⟩
  · exact K.pc _ _ (hst r f _ ho (K.rep _ _ hs) rfl)
  · exact K.pc _ _ (K.rep _ _ hs)

include K in
theorem keep_loc {s : State} {e : Half} {w} (h : P s) : P (s.writeWord (loc e) w) := K.wr _ _ _ h (loc_lt_space _ _)

include K in
theorem keep_nextLoc {s : State} {cfg} (hc : s.cfg = cfg) {e : Half} {w} (h : P s) : P (s.writeWord (nextLoc cfg e) w) :=
  K.wr _ _ _ h (by rw [hc]; exact nextLoc_lt_space _ _)

include K in
theorem keep_mode (m : Mode) {ac e r u} (h : P u) : P (storeMode m ac e r u) := by
  cases m <;> simp only [storeMode] <;> first | exact K.ac _ _ _ h | exact keep_loc K h | exact K.ac _ _ _ (keep_loc K h)
include K in
theorem keep_pair {ac r u} (h : P u) : P (storePair ac r u) := K.ac _ _ _ (K.ac _ _ _ h)

include K in
theorem keep_modePair (m : Mode) {ac e r u} (h : P u) : P (storeModePair m ac e r u) := by
  cases m <;> simp only [storeModePair] <;> first | exact keep_pair K h | exact keep_loc K h | exact keep_pair K (keep_loc K h)
include K in
theorem keep_self {ac e r u} (h : P u) : P (storeSelf ac e r u) := by
  unfold storeSelf; split
  · exact keep_loc K h
  · exact K.ac _ _ _ (keep_loc K h)
include K in
theorem keep_move (m : MoveMode) {ac e r u} (h : P u) : P (storeMove m ac e r u) := by
  cases m <;> simp only [storeMove] <;> first | exact K.ac _ _ _ h | exact keep_loc K h | exact keep_self K h

/-! ## Stores and routing groups keep it -/

section groups

variable {s t : State} {ac : AcNum} {a : AddrSpec}
include K
theorem k_arith {m imm core} (hs : P s) (h : arithGroup m imm core ac a s = .next t) : P t := by
  obtain ⟨e, b, -, -, h⟩ := arithGroup_next h
  exact keep_retireTo K hs (fun _ _ _ _ hu _ => keep_mode K m hu) h
theorem k_pairG {m core} (hs : P s) (h : pairGroup m core ac a s = .next t) : P t := by
  obtain ⟨e, b, -, -, h⟩ := pairGroup_next h
  exact keep_retireTo K hs (fun _ _ _ _ hu _ => keep_modePair K m hu) h
theorem k_divG {m core} (hs : P s) (h : divGroup m core ac a s = .next t) : P t := by
  obtain ⟨e, b, -, -, h⟩ := divGroup_next h
  exact keep_retireTo K hs (fun _ _ _ _ hu _ => keep_modePair K m hu) h
theorem k_move {m core} (hs : P s) (h : moveGroup m core ac a s = .next t) : P t := by
  obtain ⟨e, b, -, -, h⟩ := moveGroup_next h
  exact keep_retireTo K hs (fun _ _ _ _ hu _ => keep_move K m hu) h
theorem k_jump {c core} (hs : P s) (h : jumpGroup c core ac a s = .next t) : P t := by
  obtain ⟨e, -, h⟩ := jumpGroup_next h
  exact keep_retireTo K hs (fun _ _ _ _ hu _ => K.ac _ _ _ hu) h
theorem k_skip {c core} (hs : P s) (h : skipGroup c core ac a s = .next t) : P t := by
  obtain ⟨e, x, -, -, h⟩ := skipGroup_next h
  exact keep_retireTo K hs (fun _ _ _ _ hu _ => keep_self K hu) h
theorem k_double {core} (hs : P s) (h : doubleGroup core ac a s = .next t) : P t := by
  obtain ⟨e, d, -, h⟩ := doubleGroup_next h
  exact keep_retireTo K hs (fun _ _ _ _ hu _ => keep_pair K hu) h
theorem k_count {core} (hs : P s) (h : countGroup core ac a s = .next t) : P t := by
  obtain ⟨e, -, h⟩ := countGroup_next h
  exact keep_retireTo K hs (fun _ _ _ _ hu _ => K.ac _ _ _ hu) h
theorem k_countPair {core} (hs : P s) (h : countPairGroup core ac a s = .next t) : P t := by
  obtain ⟨e, -, h⟩ := countPairGroup_next h
  exact keep_retireTo K hs (fun _ _ _ _ hu _ => keep_pair K hu) h
theorem k_unary {core} (hs : P s) (h : unaryGroup core ac a s = .next t) : P t := by
  obtain ⟨b, h⟩ := unaryGroup_next h
  exact keep_retireTo K hs (fun _ _ _ _ hu _ => K.ac _ _ _ hu) h
theorem k_narrow {core} (hs : P s) (h : narrowGroup core ac a s = .next t) : P t := by
  obtain ⟨b, h⟩ := narrowGroup_next h
  exact keep_retireTo K hs (fun _ _ _ _ hu _ => K.ac _ _ _ hu) h
theorem k_widen {core} (hs : P s) (h : widenGroup core ac a s = .next t) : P t := by
  obtain ⟨b, h⟩ := widenGroup_next h
  exact keep_retireTo K hs (fun _ _ _ _ hu _ => keep_pair K hu) h
theorem k_pairMem {core} (hs : P s) (h : pairFromMemGroup core ac a s = .next t) : P t := by
  obtain ⟨b, h⟩ := pairFromMemGroup_next h
  exact keep_retireTo K hs (fun _ _ _ _ hu _ => keep_pair K hu) h
end groups

/-! ## Byte addresses are in the address space -/

theorem canon_local {cfg : Params} (hx : cfg.extended = false) {w0 m1 bp} (h : canon cfg w0 m1 = .ok bp) : bp.form = .owl := by
  simp [canon, hx] at h; rw [← h]

theorem resolveLocal_lt {s : State} {i x y a} (h : resolveLocal s i x y = .ok a) : a.toNat < Params.space s.cfg := by
  unfold resolveLocal at h
  cases he : effAddr s ⟨i, x, y.setWidth 18⟩ with
  | error e => simp [he, Except.map] at h
  | ok e => simp [he, Except.map] at h; rw [← h]; exact loc_lt_space _ _

theorem byteAddr_lt {s : State} {bp a} (hb : s.cfg.extended = true ∨ bp.form = .owl) (h : byteAddr s bp = .ok a) :
    a.toNat < Params.space s.cfg := by
  rcases hb with hx | hf
  · have : Params.space s.cfg = 2 ^ 30 := by simp [Params.space, hx]
    rw [this]; exact a.isLt
  · simp only [byteAddr, hf] at h
    exact resolveLocal_lt h

theorem incPointer_form (bp : Bp) : (incPointer bp).form = bp.form := by
  unfold incPointer; split <;> rfl

include K in
theorem keep_byte {s t : State} {ac e} {o : CoreOutcome ByteResult} (hs : P s)
    (ho : ∀ r f, o = .done r f → ∀ x w, r.written = some (x, w) → x.toNat < Params.space s.cfg)
    (h : retire s o (storeByte ac e) = .next t) : P t := by
  refine keep_retireTo K hs (fun r f u hr hu hc => ?_) h
  unfold storeByte
  have h1 : P (storeWritten r.written u) := by
    rcases hw : r.written with _ | ⟨x, w⟩
    · exact hu
    · exact K.wr _ _ _ hu (by rw [hc]; exact ho r f hr x w hw)
  have h2 : P (storePointer e r.ptr (storeWritten r.written u)) := by
    rcases r.ptr with _ | ⟨w0, _ | w1⟩
    · exact h1
    · exact keep_loc K h1
    · exact keep_nextLoc K (by simp) (keep_loc K h1)
  rcases r.ac with _ | ⟨w0, _ | w1⟩
  · exact h2
  · exact K.ac _ _ _ h2
  · exact keep_pair K h2

theorem dep_lt {s : State} {w0 m1 b r f} (h : dpbCore s b w0 m1 = .done r f) :
    ∀ x w, r.written = some (x, w) → x.toNat < Params.space s.cfg := by
  obtain ⟨bp, hc, _, h⟩ := withPointer_done h
  obtain ⟨y, v, hy, hv, h⟩ := withByteWord_done h
  obtain ⟨-, h⟩ := withByteWrite_done h
  simp only [CoreOutcome.done.injEq] at h
  obtain ⟨rfl, _⟩ := h
  rintro x w ⟨⟩
  refine byteAddr_lt ?_ hy
  by_cases hx : s.cfg.extended = true
  · exact .inl hx
  · exact .inr (canon_local (by simpa using hx) hc)

theorem idep_lt {s : State} {w0 m1 b r f} (h : idpbCore s b w0 m1 = .done r f) :
    ∀ x w, r.written = some (x, w) → x.toNat < Params.space s.cfg := by
  obtain ⟨bp, hc, _, h⟩ := withPointer_done h
  obtain ⟨y, v, hy, hv, h⟩ := withByteWord_done h
  obtain ⟨-, h⟩ := withByteWrite_done h
  simp only [CoreOutcome.done.injEq] at h
  obtain ⟨rfl, _⟩ := h
  rintro x w ⟨⟩
  refine byteAddr_lt ?_ hy
  by_cases hx : s.cfg.extended = true
  · exact .inl hx
  · exact .inr (by rw [incPointer_form]; exact canon_local (by simpa using hx) hc)

theorem none_ldb {s : State} {w0 m1 r f} (h : ldbCore s w0 m1 = .done r f) : r.written = none := by
  obtain ⟨bp, hc, _, h⟩ := withPointer_done h
  obtain ⟨y, v, hy, hv, h⟩ := withByteWord_done h
  simp only [CoreOutcome.done.injEq] at h
  obtain ⟨rfl, _⟩ := h; rfl

theorem none_ildb {s : State} {w0 m1 r f} (h : ildbCore s w0 m1 = .done r f) : r.written = none := by
  obtain ⟨bp, hc, _, h⟩ := withPointer_done h
  obtain ⟨y, v, hy, hv, h⟩ := withByteWord_done h
  simp only [CoreOutcome.done.injEq] at h
  obtain ⟨rfl, _⟩ := h; rfl

theorem none_ibp {s : State} {w0 m1 r f} (h : ibpCore s w0 m1 = .done r f) : r.written = none := by
  obtain ⟨bp, hc, _, h⟩ := withPointer_done h
  simp only [CoreOutcome.done.injEq] at h
  obtain ⟨rfl, _⟩ := h; rfl

theorem none_adjbp {s : State} {w0 m1 c r f} (h : adjbpCore s c w0 m1 = .done r f) : r.written = none := by
  obtain ⟨bp, hc, _, h⟩ := withPointer_done h
  split at h
  · simp only [CoreOutcome.done.injEq] at h; obtain ⟨rfl, _⟩ := h; rfl
  · split at h
    · simp at h
    · simp only [CoreOutcome.done.injEq] at h; obtain ⟨rfl, _⟩ := h; rfl

include K in
theorem k_byte {s t : State} {ac a} {core} (hs : P s) (hcore : ∀ w0 m1 r f, core s w0 m1 = .done r f → ∀ x w, r.written = some (x, w) → x.toNat < Params.space s.cfg)
    (h : byteGroup core ac a s = .next t) : P t := by
  obtain ⟨e, w0, -, -, h⟩ := byteGroup_next h
  exact keep_byte K hs (hcore _ _) h

/-- Whatever the instruction, a next state keeps what the primitive stores keep. -/
theorem keep_exec {P : State → Prop} (K : Keep P) {i : Instr} {s t : State} (hs : P s) (h : exec i s = .next t) : P t := by
  cases i
  case movmi ac a => obtain ⟨e, -, h⟩ := withE_next h; exact keep_retireTo K hs (fun _ _ _ _ hu _ => K.ac _ _ _ hu) h
  case dmovnm ac a =>
    obtain ⟨e, -, h⟩ := withE_next h
    exact keep_retireTo K hs (fun r _ u _ hu _ => keep_nextLoc K (by simp) (keep_loc K hu)) h
  case dmul ac a =>
    obtain ⟨e, -, h⟩ := withE_next h; obtain ⟨d, -, -, h⟩ := withPair_inv h
    exact keep_retireTo K hs (fun r _ u _ hu _ => keep_pair K (keep_pair K hu)) h
  case ddiv ac a =>
    obtain ⟨e, -, h⟩ := withE_next h; obtain ⟨d, -, -, h⟩ := withPair_inv h
    exact keep_retireTo K hs (fun r _ u _ hu _ => keep_pair K (keep_pair K hu)) h
  case ufa ac a =>
    obtain ⟨e, -, h⟩ := withE_next h; obtain ⟨d, -, h⟩ := withWord_next h
    exact keep_retireTo K hs (fun r _ u _ hu _ => K.ac _ _ _ hu) h
  case ldb ac a => exact k_byte K hs (fun w0 m1 r f hr x w hx => by rw [none_ldb hr] at hx; cases hx) h
  case ildb ac a => exact k_byte K hs (fun w0 m1 r f hr x w hx => by rw [none_ildb hr] at hx; cases hx) h
  case ibp a => exact k_byte K hs (fun w0 m1 r f hr x w hx => by rw [none_ibp hr] at hx; cases hx) h
  case adjbp ac a => exact k_byte K (core := fun s => adjbpCore s (s.ac ac)) hs (fun w0 m1 r f hr x w hx => by rw [none_adjbp hr] at hx; cases hx) h
  case dpb ac a => exact k_byte K (core := fun s => dpbCore s (s.ac ac)) hs (fun w0 m1 r f hr => dep_lt hr) h
  case idpb ac a => exact k_byte K (core := fun s => idpbCore s (s.ac ac)) hs (fun w0 m1 r f hr => idep_lt hr) h
  case gfad => exact k_double K hs (ifGfloat_next h).2
  case gfsb => exact k_double K hs (ifGfloat_next h).2
  case gfmp => exact k_double K hs (ifGfloat_next h).2
  case gfdv => exact k_double K hs (ifGfloat_next h).2
  case gsngl => exact k_narrow K hs (ifGfloat_next h).2
  case gfix => exact k_narrow K hs (ifGfloat_next h).2
  case gfixr => exact k_narrow K hs (ifGfloat_next h).2
  case gdble => exact k_widen K hs (ifGfloat_next h).2
  case gfltr => exact k_widen K hs (ifGfloat_next h).2
  case dgfix => exact k_pairMem K hs (ifGfloat_next h).2
  case dgfixr => exact k_pairMem K hs (ifGfloat_next h).2
  case dgfltr => exact k_pairMem K hs (ifGfloat_next h).2
  case gfsc => exact k_countPair K hs (ifGfloat_next h).2
  all_goals first
    | exact k_arith K hs h | exact k_move K hs h | exact k_jump K hs h | exact k_skip K hs h | exact k_pairG K hs h
    | exact k_divG K hs h | exact k_double K hs h | exact k_count K hs h | exact k_countPair K hs h | exact k_unary K hs h
    | exact k_pairMem K hs h

/-- Everything a step can answer as a next state: a halted machine itself, HALT, or exec of what the fetched words decode to. -/
theorem step_next {s t : State} (h : step s = .next t) : (s.run = .halted ∧ t = s) ∨
    (s.run = .running ∧ (t = haltRun s ∨ ∃ ws i rest, fetchWords s = .ok ws ∧ decode ws = .ok (i, rest) ∧ exec i s = .next t)) := by
  unfold step at h
  split at h
  · left; simp at h; exact ⟨‹_›, h.symm⟩
  · cases h
  · cases h
  · right
    refine ⟨‹_›, ?_⟩
    split at h
    · cases h
    · next ws hw =>
      unfold runWords at h
      split at h
      · left; simp at h; exact h.symm
      · split at h
        · cases h
        · next i rest hd => right; exact ⟨ws, i, rest, hw, hd, h⟩

end Sys2Proof.Machine
end

