-- ==== Sys2Proof/Tests/Slice0.lean ====
section
/-! SUPPORT. Tests of the model, each of one step on a small state, and one witness for each statement with hypotheses.
Expected results come from the spec: words of the decode tests from 30_encoding.md R151-R153, results of the vectors from
95_test_vectors.md, the rest by hand from the rule named beside the test. -/



namespace Sys2Proof.Tests

set_option Elab.async false

open Sys2Proof.Machine

/-! ## Helpers -/

/-- Address fields that name an address directly. -/
def direct (y : Half) : AddrSpec := ⟨false, 0, y⟩

/-- The state after reset, with some accumulators and some words of memory written. -/
def start (cfg : Params) (acs : List (AcNum × Word)) (mem : List (Nat × Word)) : State :=
  mem.foldl (fun s p => s.writeWord (BitVec.ofNat 30 p.1) p.2)
    (acs.foldl (fun s p => s.setAc p.1 p.2) (State.resetWith cfg))

/-- A vector: the instruction, the accumulators and words before it, those to be found after it, the flags it reports. -/
structure Vec where
  i : Instr
  acs : List (AcNum × Word)
  mem : List (Nat × Word)
  acsAfter : List (AcNum × Word)
  memAfter : List (Nat × Word)
  flags : Flags

/-- The accumulators and words a state holds. -/
def holds (t : State) (acs : List (AcNum × Word)) (mem : List (Nat × Word)) : Bool :=
  acs.all (fun p => decide (t.ac p.1 = p.2)) && mem.all fun p => decide (t.readWord (BitVec.ofNat 30 p.1) = some p.2)

/-- The step gives what the vector says. -/
def Vec.passes (cfg : Params) (v : Vec) : Bool :=
  match exec v.i (start cfg v.acs v.mem) with
  | .next t => decide (t.flags = v.flags) && decide (t.run = .running) && holds t v.acsAfter v.memAfter
  | .fault _ => false
  | .refused _ => false

/-- Every vector passes under the parameters. -/
def pass (cfg : Params) (vs : List Vec) : Bool := vs.all (Vec.passes cfg)

/-- The default parameters, and one parameter of them changed. -/
def std : Params := .standard
def carry1Params : Params := { Params.standard with negMaxnegCarry1 := true }
def asNegate : Params := { Params.standard with dmovnFlags := .asNegate }
def permit : Params := { Params.standard with idivMaxneg := .permit }
def truncates : Params := { Params.standard with doubleRound := false }
def hardware : Params := { Params.standard with fidelity := .hardware }
def extended : Params := { Params.standard with extended := true }
def noGfloat : Params := { Params.standard with hasGfloat := false }

/-- The named flag sets of R63, and those of the carries. -/
def ov : Flags := ⟨false, false, true, true, false, false, false⟩
def noDivide : Flags := ⟨false, false, true, true, false, false, true⟩
def fov : Flags := ⟨false, false, true, true, true, false, false⟩
def fxu : Flags := ⟨false, false, true, true, true, true, false⟩
def fNoDivide : Flags := ⟨false, false, true, true, true, false, true⟩
def c01 : Flags := ⟨true, true, false, false, false, false, false⟩
def c0ov : Flags := ⟨true, false, true, true, false, false, false⟩
def c1ov : Flags := ⟨false, true, true, true, false, false, false⟩

/-- The outcome is a next state. -/
def answers (o : Out) : Bool :=
  match o with
  | .next _ => true
  | .fault _ => false
  | .refused _ => false

theorem answers_next {o : Out} (h : answers o = true) : ∃ t, o = .next t := by
  cases o
  case next t => exact ⟨t, rfl⟩
  all_goals cases h

/-- The fault a step ends with, where it does. -/
def faultOf (o : Out) : Option Fault :=
  match o with
  | .fault f => some f
  | .next _ => none
  | .refused _ => none

/-- The refusal a step ends with, where it does. -/
def refusalOf (o : Out) : Option Refusal :=
  match o with
  | .refused r => some r
  | .next _ => none
  | .fault _ => none

/-- The program counter after a step that answers. -/
def pcOf (o : Out) : Option Half :=
  match o with
  | .next t => some t.pc
  | .fault _ => none
  | .refused _ => none

/-- The words decode to the instruction, with nothing left over. -/
def reads (row : List Word × Instr) : Bool :=
  match decode row.1 with
  | .ok (i, []) => decide (i = row.2)
  | .ok (_, _ :: _) => false
  | .error _ => false

/-! ## Well-formedness: the ill-formed term is refused, its neighbours are not -/

theorem test_wf_refuses_adjbp_of_ac0 : (Instr.adjbp 0 (direct 0o100)).wf = false := by decide

theorem test_wf_takes_its_neighbours :
    (Instr.adjbp 1 (direct 0o100)).wf = true ∧ (Instr.ibp (direct 0o100)).wf = true ∧
      (Instr.add 0 (direct 0o100)).wf = true := by decide

/-! ## Decoding: for every constructor a word written out from the opcode of R153 and the fields of R151 (AC 5, I 1, X 3,
Y 123456), and for R152 a second word (AC 2, Y 654321) -/

/-- The address fields of the words below. -/
def far : AddrSpec := ⟨true, 3, 0o123456⟩

theorem test_decode_add_sub_move :
    List.all
    [([0o270263_123456], .add 5 far), ([0o271263_123456], .addi 5 far),
     ([0o272263_123456], .addm 5 far), ([0o273263_123456], .addb 5 far),
     ([0o274263_123456], .sub 5 far), ([0o275263_123456], .subi 5 far),
     ([0o276263_123456], .subm 5 far), ([0o277263_123456], .subb 5 far),
     ([0o210263_123456], .movn 5 far), ([0o211263_123456], .movni 5 far),
     ([0o212263_123456], .movnm 5 far), ([0o213263_123456], .movns 5 far),
     ([0o214263_123456], .movm 5 far), ([0o215263_123456], .movmi 5 far),
     ([0o216263_123456], .movmm 5 far), ([0o217263_123456], .movms 5 far)] reads = true := by decide

theorem test_decode_aoj_aos :
    List.all
    [([0o340263_123456], .aoj 5 far), ([0o341263_123456], .aojl 5 far),
     ([0o342263_123456], .aoje 5 far), ([0o343263_123456], .aojle 5 far),
     ([0o344263_123456], .aoja 5 far), ([0o345263_123456], .aojge 5 far),
     ([0o346263_123456], .aojn 5 far), ([0o347263_123456], .aojg 5 far),
     ([0o350263_123456], .aos 5 far), ([0o351263_123456], .aosl 5 far),
     ([0o352263_123456], .aose 5 far), ([0o353263_123456], .aosle 5 far),
     ([0o354263_123456], .aosa 5 far), ([0o355263_123456], .aosge 5 far),
     ([0o356263_123456], .aosn 5 far), ([0o357263_123456], .aosg 5 far)] reads = true := by decide

theorem test_decode_soj_sos :
    List.all
    [([0o360263_123456], .soj 5 far), ([0o361263_123456], .sojl 5 far),
     ([0o362263_123456], .soje 5 far), ([0o363263_123456], .sojle 5 far),
     ([0o364263_123456], .soja 5 far), ([0o365263_123456], .sojge 5 far),
     ([0o366263_123456], .sojn 5 far), ([0o367263_123456], .sojg 5 far),
     ([0o370263_123456], .sos 5 far), ([0o371263_123456], .sosl 5 far),
     ([0o372263_123456], .sose 5 far), ([0o373263_123456], .sosle 5 far),
     ([0o374263_123456], .sosa 5 far), ([0o375263_123456], .sosge 5 far),
     ([0o376263_123456], .sosn 5 far), ([0o377263_123456], .sosg 5 far)] reads = true := by decide

theorem test_decode_double_fixed_and_shifts :
    List.all
    [([0o114263_123456], .dadd 5 far), ([0o115263_123456], .dsub 5 far),
     ([0o116263_123456], .dmul 5 far), ([0o117263_123456], .ddiv 5 far),
     ([0o121263_123456], .dmovn 5 far), ([0o125263_123456], .dmovnm 5 far),
     ([0o240263_123456], .ash 5 far), ([0o241263_123456], .rot 5 far),
     ([0o242263_123456], .lsh 5 far), ([0o244263_123456], .ashc 5 far),
     ([0o245263_123456], .rotc 5 far), ([0o246263_123456], .lshc 5 far)] reads = true := by decide

theorem test_decode_mul_div :
    List.all
    [([0o220263_123456], .imul 5 far), ([0o221263_123456], .imuli 5 far),
     ([0o222263_123456], .imulm 5 far), ([0o223263_123456], .imulb 5 far),
     ([0o224263_123456], .mul 5 far), ([0o225263_123456], .muli 5 far),
     ([0o226263_123456], .mulm 5 far), ([0o227263_123456], .mulb 5 far),
     ([0o230263_123456], .idiv 5 far), ([0o231263_123456], .idivi 5 far),
     ([0o232263_123456], .idivm 5 far), ([0o233263_123456], .idivb 5 far),
     ([0o234263_123456], .div 5 far), ([0o235263_123456], .divi 5 far),
     ([0o236263_123456], .divm 5 far), ([0o237263_123456], .divb 5 far)] reads = true := by decide

theorem test_decode_boolean_0 :
    List.all
    [([0o400263_123456], .setz 5 far), ([0o401263_123456], .setzi 5 far),
     ([0o402263_123456], .setzm 5 far), ([0o403263_123456], .setzb 5 far),
     ([0o404263_123456], .and 5 far), ([0o405263_123456], .andi 5 far),
     ([0o406263_123456], .andm 5 far), ([0o407263_123456], .andb 5 far),
     ([0o410263_123456], .andca 5 far), ([0o411263_123456], .andcai 5 far),
     ([0o412263_123456], .andcam 5 far), ([0o413263_123456], .andcab 5 far),
     ([0o414263_123456], .setm 5 far), ([0o415263_123456], .setmi 5 far),
     ([0o416263_123456], .setmm 5 far), ([0o417263_123456], .setmb 5 far)] reads = true := by decide

theorem test_decode_boolean_4 :
    List.all
    [([0o420263_123456], .andcm 5 far), ([0o421263_123456], .andcmi 5 far),
     ([0o422263_123456], .andcmm 5 far), ([0o423263_123456], .andcmb 5 far),
     ([0o424263_123456], .seta 5 far), ([0o425263_123456], .setai 5 far),
     ([0o426263_123456], .setam 5 far), ([0o427263_123456], .setab 5 far),
     ([0o430263_123456], .xor 5 far), ([0o431263_123456], .xori 5 far),
     ([0o432263_123456], .xorm 5 far), ([0o433263_123456], .xorb 5 far),
     ([0o434263_123456], .ior 5 far), ([0o435263_123456], .iori 5 far),
     ([0o436263_123456], .iorm 5 far), ([0o437263_123456], .iorb 5 far)] reads = true := by decide

theorem test_decode_boolean_8 :
    List.all
    [([0o440263_123456], .andcb 5 far), ([0o441263_123456], .andcbi 5 far),
     ([0o442263_123456], .andcbm 5 far), ([0o443263_123456], .andcbb 5 far),
     ([0o444263_123456], .eqv 5 far), ([0o445263_123456], .eqvi 5 far),
     ([0o446263_123456], .eqvm 5 far), ([0o447263_123456], .eqvb 5 far),
     ([0o450263_123456], .setca 5 far), ([0o451263_123456], .setcai 5 far),
     ([0o452263_123456], .setcam 5 far), ([0o453263_123456], .setcab 5 far),
     ([0o454263_123456], .orca 5 far), ([0o455263_123456], .orcai 5 far),
     ([0o456263_123456], .orcam 5 far), ([0o457263_123456], .orcab 5 far)] reads = true := by decide

theorem test_decode_boolean_12 :
    List.all
    [([0o460263_123456], .setcm 5 far), ([0o461263_123456], .setcmi 5 far),
     ([0o462263_123456], .setcmm 5 far), ([0o463263_123456], .setcmb 5 far),
     ([0o464263_123456], .orcm 5 far), ([0o465263_123456], .orcmi 5 far),
     ([0o466263_123456], .orcmm 5 far), ([0o467263_123456], .orcmb 5 far),
     ([0o470263_123456], .orcb 5 far), ([0o471263_123456], .orcbi 5 far),
     ([0o472263_123456], .orcbm 5 far), ([0o473263_123456], .orcbb 5 far),
     ([0o474263_123456], .seto 5 far), ([0o475263_123456], .setoi 5 far),
     ([0o476263_123456], .setom 5 far), ([0o477263_123456], .setob 5 far)] reads = true := by decide

theorem test_decode_float_140 :
    List.all
    [([0o140263_123456], .fad 5 far), ([0o142263_123456], .fadm 5 far),
     ([0o143263_123456], .fadb 5 far), ([0o144263_123456], .fadr 5 far),
     ([0o145263_123456], .fadri 5 far), ([0o146263_123456], .fadrm 5 far),
     ([0o147263_123456], .fadrb 5 far), ([0o150263_123456], .fsb 5 far),
     ([0o152263_123456], .fsbm 5 far), ([0o153263_123456], .fsbb 5 far),
     ([0o154263_123456], .fsbr 5 far), ([0o155263_123456], .fsbri 5 far),
     ([0o156263_123456], .fsbrm 5 far), ([0o157263_123456], .fsbrb 5 far)] reads = true := by decide

theorem test_decode_float_160 :
    List.all
    [([0o160263_123456], .fmp 5 far), ([0o162263_123456], .fmpm 5 far),
     ([0o163263_123456], .fmpb 5 far), ([0o164263_123456], .fmpr 5 far),
     ([0o165263_123456], .fmpri 5 far), ([0o166263_123456], .fmprm 5 far),
     ([0o167263_123456], .fmprb 5 far), ([0o170263_123456], .fdv 5 far),
     ([0o172263_123456], .fdvm 5 far), ([0o173263_123456], .fdvb 5 far),
     ([0o174263_123456], .fdvr 5 far), ([0o175263_123456], .fdvri 5 far),
     ([0o176263_123456], .fdvrm 5 far), ([0o177263_123456], .fdvrb 5 far)] reads = true := by decide

theorem test_decode_float_others :
    List.all
    [([0o130263_123456], .ufa 5 far), ([0o132263_123456], .fsc 5 far),
     ([0o122263_123456], .fix 5 far), ([0o126263_123456], .fixr 5 far),
     ([0o127263_123456], .fltr 5 far), ([0o110263_123456], .dfad 5 far),
     ([0o111263_123456], .dfsb 5 far), ([0o112263_123456], .dfmp 5 far),
     ([0o113263_123456], .dfdv 5 far), ([0o102263_123456], .gfad 5 far),
     ([0o103263_123456], .gfsb 5 far), ([0o106263_123456], .gfmp 5 far),
     ([0o107263_123456], .gfdv 5 far)] reads = true := by decide

theorem test_decode_bytes :
    List.all
    [([0o133023_123456], .ibp far), ([0o133263_123456], .adjbp 5 far),
     ([0o134263_123456], .ildb 5 far), ([0o135263_123456], .ldb 5 far),
     ([0o136263_123456], .idpb 5 far), ([0o137263_123456], .dpb 5 far)] reads = true := by decide

theorem test_decode_extend :
    List.all
    [([0o123263_123456, 0o21100_654321], .gsngl 5 far 2 (direct 0o654321)), ([0o123263_123456, 0o22100_654321], .gdble 5 far 2 (direct 0o654321)),
     ([0o123263_123456, 0o23100_654321], .dgfix 5 far 2 (direct 0o654321)), ([0o123263_123456, 0o24100_654321], .gfix 5 far 2 (direct 0o654321)),
     ([0o123263_123456, 0o25100_654321], .dgfixr 5 far 2 (direct 0o654321)), ([0o123263_123456, 0o26100_654321], .gfixr 5 far 2 (direct 0o654321)),
     ([0o123263_123456, 0o27100_654321], .dgfltr 5 far 2 (direct 0o654321)), ([0o123263_123456, 0o30100_654321], .gfltr 5 far 2 (direct 0o654321)),
     ([0o123263_123456, 0o31100_654321], .gfsc 5 far 2 (direct 0o654321))] reads = true := by decide

/-- R156: opcodes 141, 255 and 777, and extended opcodes 020 and 032, are in no row; R152: a first word alone is too few. -/
theorem test_decode_rejects :
    decode [0o141_000_000000] = .error (.notInCore 0o141 none) ∧ decode [0o255_000_000000] = .error (.notInCore 0o255 none) ∧
    decode [0o777_000_000000] = .error (.notInCore 0o777 none) ∧
    decode [0o123_000_000100, 0o020_000_000200] = .error (.notInCore 0o123 (some 0o020)) ∧
    decode [0o123_000_000100, 0o032_000_000200] = .error (.notInCore 0o123 (some 0o032)) ∧
    decode [] = .error .tooFewWords ∧ decode [0o123_000_000100] = .error .tooFewWords := by decide

/-- R153 table 10: with AC field 0 opcode 133 is IBP; the opcode table's own numbers reach the decoder. -/
theorem test_decode_table_words :
    decodeTableWord 36 0o133_000_000000 = some (.ibp (direct 0)) ∧
    decodeTableWord 36 0o133_040_000000 = some (.adjbp 1 (direct 0)) ∧
    decodeTableWord 36 0o024_000_000000 = some (.gfix 0 (direct 0) 0 (direct 0)) ∧
    decodeTableWord 36 0o270_000_000000 = some (.add 0 (direct 0)) := by decide

/-! ## Fixed-point vectors (95_test_vectors.md sections 2 and 3) -/

theorem test_add : pass std [
    ⟨.add 5 (direct 0o1000), [(5, 0o1)], [(0o1000, 0o2)], [(5, 0o3)], [], .none⟩,
    ⟨.add 5 (direct 0o1000), [(5, 0o377777_777777)], [(0o1000, 0o1)], [(5, 0o400000_000000)], [], c1ov⟩,
    ⟨.add 5 (direct 0o1000), [(5, 0o1)], [(0o1000, 0o777777_777777)], [(5, 0)], [], c01⟩,
    ⟨.add 5 (direct 0o1000), [(5, 0o1)], [(0o1000, 0o777777_777775)], [(5, 0o777777_777776)], [], .none⟩,
    ⟨.add 5 (direct 0o1000), [(5, 0o777777_777777)], [(0o1000, 0o1)], [(5, 0)], [], c01⟩,
    ⟨.add 5 (direct 0o1000), [(5, 0o777777_777775)], [(0o1000, 0o1)], [(5, 0o777777_777776)], [], .none⟩,
    ⟨.add 5 (direct 0o1000), [(5, 0o400000_000000)], [(0o1000, 0o400000_000000)], [(5, 0)], [], c0ov⟩,
    ⟨.add 5 (direct 0o1000), [(5, 0o777777_777777)], [(0o1000, 0o777777_777777)], [(5, 0o777777_777776)], [], c01⟩] = true := by decide +kernel

theorem test_sub : pass std [
    ⟨.sub 5 (direct 0o1000), [(5, 0o5)], [(0o1000, 0o3)], [(5, 0o2)], [], c01⟩,
    ⟨.sub 5 (direct 0o1000), [(5, 0o3)], [(0o1000, 0o5)], [(5, 0o777777_777776)], [], .none⟩,
    ⟨.sub 5 (direct 0o1000), [(5, 0)], [(0o1000, 0o777777_777777)], [(5, 0o1)], [], .none⟩,
    ⟨.sub 5 (direct 0o1000), [(5, 0)], [(0o1000, 0o400000_000000)], [(5, 0o400000_000000)], [], c1ov⟩,
    ⟨.sub 5 (direct 0o1000), [(5, 0o400000_000000)], [(0o1000, 0o1)], [(5, 0o377777_777777)], [], c0ov⟩,
    ⟨.sub 5 (direct 0o1000), [(5, 0o777777_777777)], [(0o1000, 0o3)], [(5, 0o777777_777774)], [], c01⟩,
    ⟨.sub 5 (direct 0o1000), [(5, 0o777777_777777)], [(0o1000, 0o777777_777775)], [(5, 0o2)], [], c01⟩,
    ⟨.sub 5 (direct 0o1000), [(5, 0o777777_777775)], [(0o1000, 0o777777_777777)], [(5, 0o777777_777776)], [], .none⟩] = true := by decide +kernel

theorem test_movn : pass std [
    ⟨.movn 5 (direct 0o1000), [], [(0o1000, 0o1)], [(5, 0o777777_777777)], [], .none⟩] = true := by decide +kernel

theorem test_movn_under_carry1Params : pass carry1Params [
    ⟨.movn 5 (direct 0o1000), [], [(0o1000, 0o400000_000000)], [(5, 0o400000_000000)], [], c1ov⟩] = true := by decide +kernel

theorem test_movm : pass std [
    ⟨.movm 5 (direct 0o1000), [], [(0o1000, 0o777777_777773)], [(5, 0o5)], [], .none⟩,
    ⟨.movm 5 (direct 0o1000), [], [(0o1000, 0o400000_000000)], [(5, 0o400000_000000)], [], ov⟩,
    ⟨.movm 5 (direct 0o1000), [], [(0o1000, 0)], [(5, 0)], [], .none⟩] = true := by decide +kernel

theorem test_movmi : pass std [
    ⟨.movmi 5 (direct 0o123), [], [], [(5, 0o123)], [], .none⟩] = true := by decide +kernel

theorem test_aoj : pass std [
    ⟨.aoj 5 (direct 0o1000), [(5, 0o377777_777777)], [], [(5, 0o400000_000000)], [], c1ov⟩,
    ⟨.aoj 5 (direct 0o1000), [(5, 0o777777_777777)], [], [(5, 0)], [], c01⟩] = true := by decide +kernel

theorem test_aos : pass std [
    ⟨.aos 0 (direct 0o1000), [], [(0o1000, 0o377777_777777)], [(0, 0)], [(0o1000, 0o400000_000000)], c1ov⟩,
    ⟨.aos 0 (direct 0o1000), [], [(0o1000, 0o777777_777777)], [(0, 0)], [(0o1000, 0)], c01⟩] = true := by decide +kernel

theorem test_soj : pass std [
    ⟨.soj 5 (direct 0o1000), [(5, 0o1)], [], [(5, 0)], [], c01⟩,
    ⟨.soj 5 (direct 0o1000), [(5, 0)], [], [(5, 0o777777_777777)], [], .none⟩,
    ⟨.soj 5 (direct 0o1000), [(5, 0o777777_777777)], [], [(5, 0o777777_777776)], [], c01⟩,
    ⟨.soj 5 (direct 0o1000), [(5, 0o400000_000000)], [], [(5, 0o377777_777777)], [], c0ov⟩] = true := by decide +kernel

theorem test_sos : pass std [
    ⟨.sos 6 (direct 0o1000), [], [(0o1000, 0o1)], [(6, 0)], [(0o1000, 0)], c01⟩,
    ⟨.sos 6 (direct 0o1000), [], [(0o1000, 0)], [(6, 0o777777_777777)], [(0o1000, 0o777777_777777)], .none⟩,
    ⟨.sos 6 (direct 0o1000), [], [(0o1000, 0o777777_777777)], [(6, 0o777777_777776)], [(0o1000, 0o777777_777776)], c01⟩,
    ⟨.sos 6 (direct 0o1000), [], [(0o1000, 0o400000_000000)], [(6, 0o377777_777777)], [(0o1000, 0o377777_777777)], c0ov⟩] = true := by decide +kernel

theorem test_dadd : pass std [
    ⟨.dadd 5 (direct 0o1000), [(5, 0), (6, 0o377777_777777)], [(0o1000, 0), (0o1001, 0o1)], [(5, 0o1), (6, 0)], [], .none⟩,
    ⟨.dadd 5 (direct 0o1000), [(5, 0o777777_777777), (6, 0o777777_777777)], [(0o1000, 0), (0o1001, 0o1)], [(5, 0), (6, 0)], [], c01⟩,
    ⟨.dadd 5 (direct 0o1000), [(5, 0o400000_000000), (6, 0o400000_000000)], [(0o1000, 0o400000_000000), (0o1001, 0o400000_000000)], [(5, 0), (6, 0)], [], c0ov⟩,
    ⟨.dadd 5 (direct 0o1000), [(5, 0), (6, 0o400000_000001)], [(0o1000, 0), (0o1001, 0o1)], [(5, 0), (6, 0o2)], [], .none⟩] = true := by decide +kernel

theorem test_dsub : pass std [
    ⟨.dsub 5 (direct 0o1000), [(5, 0o1), (6, 0)], [(0o1000, 0), (0o1001, 0o1)], [(5, 0), (6, 0o377777_777777)], [], c01⟩] = true := by decide +kernel

theorem test_dmovn : pass std [
    ⟨.dmovn 5 (direct 0o1000), [], [(0o1000, 0), (0o1001, 0o1)], [(5, 0o777777_777777), (6, 0o377777_777777)], [], .none⟩] = true := by decide +kernel

theorem test_dmovn_under_asNegate : pass asNegate [
    ⟨.dmovn 5 (direct 0o1000), [], [(0o1000, 0o400000_000000), (0o1001, 0)], [(5, 0o400000_000000), (6, 0)], [], ov⟩,
    ⟨.dmovn 5 (direct 0o1000), [], [(0o1000, 0), (0o1001, 0)], [(5, 0), (6, 0)], [], c01⟩] = true := by decide +kernel

theorem test_imul : pass std [
    ⟨.imul 5 (direct 0o1000), [(5, 0o3)], [(0o1000, 0o777777_777774)], [(5, 0o777777_777764)], [], .none⟩,
    ⟨.imul 5 (direct 0o1000), [(5, 0o400000_000000)], [(0o1000, 0o400000_000000)], [(5, 0o400000_000000)], [], ov⟩,
    ⟨.imul 5 (direct 0o1000), [(5, 0o400000_000000)], [(0o1000, 0o777777_777777)], [(5, 0)], [], ov⟩,
    ⟨.imul 5 (direct 0o1000), [(5, 0o1_000000)], [(0o1000, 0o1_000000)], [(5, 0)], [], ov⟩] = true := by decide +kernel

theorem test_mul : pass std [
    ⟨.mul 5 (direct 0o1000), [(5, 0o3)], [(0o1000, 0o777777_777774)], [(5, 0o777777_777777), (6, 0o777777_777764)], [], .none⟩,
    ⟨.mul 5 (direct 0o1000), [(5, 0o777777_777777)], [(0o1000, 0o777777_777777)], [(5, 0), (6, 0o1)], [], .none⟩,
    ⟨.mul 5 (direct 0o1000), [(5, 0o400000_000000)], [(0o1000, 0o400000_000000)], [(5, 0o400000_000000), (6, 0o400000_000000)], [], ov⟩] = true := by decide +kernel

theorem test_dmul : pass std [
    ⟨.dmul 5 (direct 0o1000), [(5, 0), (6, 0o2)], [(0o1000, 0), (0o1001, 0o3)], [(5, 0), (6, 0), (7, 0), (8, 0o6)], [], .none⟩,
    ⟨.dmul 5 (direct 0o1000), [(5, 0o777777_777777), (6, 0o777777_777777)], [(0o1000, 0), (0o1001, 0o3)], [(5, 0o777777_777777), (6, 0o777777_777777), (7, 0o777777_777777), (8, 0o777777_777775)], [], .none⟩,
    ⟨.dmul 5 (direct 0o1000), [(5, 0o400000_000000), (6, 0)], [(0o1000, 0o400000_000000), (0o1001, 0)], [(5, 0o400000_000000), (6, 0o400000_000000), (7, 0o400000_000000), (8, 0o400000_000000)], [], ov⟩] = true := by decide +kernel

theorem test_idiv : pass std [
    ⟨.idiv 5 (direct 0o1000), [(5, 0o7)], [(0o1000, 0o2)], [(5, 0o3), (6, 0o1)], [], .none⟩,
    ⟨.idiv 5 (direct 0o1000), [(5, 0o777777777771)], [(0o1000, 0o2)], [(5, 0o777777_777775), (6, 0o777777_777777)], [], .none⟩,
    ⟨.idiv 5 (direct 0o1000), [(5, 0o7)], [(0o1000, 0o777777777776)], [(5, 0o777777_777775), (6, 0o1)], [], .none⟩,
    ⟨.idiv 5 (direct 0o1000), [(5, 0o777777777771)], [(0o1000, 0o777777777776)], [(5, 0o3), (6, 0o777777_777777)], [], .none⟩,
    ⟨.idiv 5 (direct 0o1000), [(5, 0o400000_000000)], [(0o1000, 0o2)], [(5, 0o600000_000000), (6, 0)], [], .none⟩,
    ⟨.idiv 5 (direct 0o1000), [(5, 0o5)], [(0o1000, 0o0)], [(5, 0o5), (6, 0)], [], noDivide⟩,
    ⟨.idiv 5 (direct 0o1000), [(5, 0o400000_000000)], [(0o1000, 0o777777777777)], [(5, 0o400000_000000), (6, 0)], [], noDivide⟩] = true := by decide +kernel

theorem test_idiv_under_permit : pass permit [
    ⟨.idiv 5 (direct 0o1000), [(5, 0o400000_000000)], [(0o1000, 0o777777777777)], [(5, 0o400000_000000), (6, 0)], [], .none⟩,
    ⟨.idiv 5 (direct 0o1000), [(5, 0o400000_000000)], [(0o1000, 0o1)], [(5, 0o400000_000000), (6, 0)], [], .none⟩] = true := by decide +kernel

theorem test_div : pass std [
    ⟨.div 5 (direct 0o1000), [(5, 0), (6, 0o10)], [(0o1000, 0o3)], [(5, 0o2), (6, 0o2)], [], .none⟩,
    ⟨.div 5 (direct 0o1000), [(5, 0o777777_777777), (6, 0o777777_777770)], [(0o1000, 0o3)], [(5, 0o777777_777776), (6, 0o777777_777776)], [], .none⟩,
    ⟨.div 5 (direct 0o1000), [(5, 0o1), (6, 0)], [(0o1000, 0o2)], [(5, 0o200000_000000), (6, 0)], [], .none⟩,
    ⟨.div 5 (direct 0o1000), [(5, 0o1), (6, 0)], [(0o1000, 0o1)], [(5, 0o1), (6, 0)], [], noDivide⟩,
    ⟨.div 5 (direct 0o1000), [(5, 0), (6, 0o100)], [(0o1000, 0)], [(5, 0), (6, 0o100)], [], noDivide⟩] = true := by decide +kernel

theorem test_ddiv : pass std [
    ⟨.ddiv 5 (direct 0o1000), [(5, 0), (6, 0), (7, 0), (8, 0o7)], [(0o1000, 0), (0o1001, 0o2)], [(5, 0), (6, 0o3), (7, 0), (8, 0o1)], [], .none⟩,
    ⟨.ddiv 5 (direct 0o1000), [(5, 0), (6, 0o1), (7, 0), (8, 0)], [(0o1000, 0), (0o1001, 0o1)], [(5, 0), (6, 0o1), (7, 0), (8, 0)], [], noDivide⟩] = true := by decide +kernel

/-- R158-R162: the other modes; `0,,E` for the immediate, E for the memory and E and AC for the both modes. -/
theorem test_add_sub_modes : pass std [
    ⟨.addi 5 (direct 3), [(5, 4)], [], [(5, 7)], [], .none⟩,
    ⟨.addm 5 (direct 0o1000), [(5, 4)], [(0o1000, 3)], [(5, 4)], [(0o1000, 7)], .none⟩,
    ⟨.addb 5 (direct 0o1000), [(5, 4)], [(0o1000, 3)], [(5, 7)], [(0o1000, 7)], .none⟩,
    ⟨.subi 5 (direct 3), [(5, 5)], [], [(5, 2)], [], c01⟩,
    ⟨.subm 5 (direct 0o1000), [(5, 5)], [(0o1000, 3)], [(5, 5)], [(0o1000, 2)], c01⟩,
    ⟨.subb 5 (direct 0o1000), [(5, 5)], [(0o1000, 3)], [(5, 2)], [(0o1000, 2)], c01⟩] = true := by decide +kernel

/-- R161: MOVNM stores to E from AC; a self mode leaves AC 0 alone and stores to any other. -/
theorem test_move_modes : pass std [
    ⟨.movni 5 (direct 1), [], [], [(5, 0o777777_777777)], [], .none⟩,
    ⟨.movnm 5 (direct 0o1000), [(5, 1)], [(0o1000, 9)], [(5, 1)], [(0o1000, 0o777777_777777)], .none⟩,
    ⟨.movns 0 (direct 0o1000), [(0, 2)], [(0o1000, 1)], [(0, 2)], [(0o1000, 0o777777_777777)], .none⟩,
    ⟨.movns 5 (direct 0o1000), [(5, 2)], [(0o1000, 1)], [(5, 0o777777_777777)], [(0o1000, 0o777777_777777)], .none⟩,
    ⟨.movmm 5 (direct 0o1000), [(5, 0o777777_777773)], [], [(5, 0o777777_777773)], [(0o1000, 5)], .none⟩,
    ⟨.movms 0 (direct 0o1000), [(0, 2)], [(0o1000, 0o777777_777773)], [(0, 2)], [(0o1000, 5)], .none⟩,
    ⟨.movms 5 (direct 0o1000), [], [(0o1000, 0o777777_777773)], [(5, 5)], [(0o1000, 5)], .none⟩] = true := by
  decide +kernel

/-- R213: DMOVNM stores to E, E+1. -/
theorem test_dmovnm : pass std [
    ⟨.dmovnm 5 (direct 0o1000), [(6, 1)], [], [(5, 0), (6, 1)],
      [(0o1000, 0o777777_777777), (0o1001, 0o377777_777777)], .none⟩] = true := by decide +kernel

/-- R158, R160: the other modes of the products; a memory mode stores the first word only. -/
theorem test_multiply_modes : pass std [
    ⟨.imuli 5 (direct 3), [(5, 4)], [], [(5, 0o14)], [], .none⟩,
    ⟨.imulm 5 (direct 0o1000), [(5, 4)], [(0o1000, 3)], [(5, 4)], [(0o1000, 0o14)], .none⟩,
    ⟨.imulb 5 (direct 0o1000), [(5, 4)], [(0o1000, 3)], [(5, 0o14)], [(0o1000, 0o14)], .none⟩,
    ⟨.muli 5 (direct 3), [(5, 4)], [], [(5, 0), (6, 0o14)], [], .none⟩,
    ⟨.mulm 5 (direct 0o1000), [(5, 4), (6, 9)], [(0o1000, 3)], [(5, 4), (6, 9)], [(0o1000, 0)], .none⟩,
    ⟨.mulb 5 (direct 0o1000), [(5, 4)], [(0o1000, 3)], [(5, 0), (6, 0o14)], [(0o1000, 0)], .none⟩] = true := by
  decide +kernel

/-- R160: the other modes of the quotients; AC and AC + 1 wrap modulo 16. -/
theorem test_divide_modes : pass std [
    ⟨.idivi 15 (direct 2), [(15, 7)], [], [(15, 3), (0, 1)], [], .none⟩,
    ⟨.idivm 5 (direct 0o1000), [(5, 7), (6, 9)], [(0o1000, 2)], [(5, 7), (6, 9)], [(0o1000, 3)], .none⟩,
    ⟨.idivb 5 (direct 0o1000), [(5, 7)], [(0o1000, 2)], [(5, 3), (6, 1)], [(0o1000, 3)], .none⟩,
    ⟨.divi 5 (direct 3), [(5, 0), (6, 8)], [], [(5, 2), (6, 2)], [], .none⟩,
    ⟨.divm 5 (direct 0o1000), [(5, 0), (6, 8)], [(0o1000, 3)], [(5, 0), (6, 8)], [(0o1000, 2)], .none⟩,
    ⟨.divb 5 (direct 0o1000), [(5, 0), (6, 8)], [(0o1000, 3)], [(5, 2), (6, 2)], [(0o1000, 2)], .none⟩] = true := by
  decide +kernel

/-- R162: the results -1, 0 and 1, and which of the eight conditions hold of each. -/
def conditionRows : List (Word × List Bool) :=
  [(0o777777_777777, [false, true, false, true, true, false, true, false]),
   (0, [false, false, true, true, true, true, false, false]),
   (1, [false, false, false, false, true, true, true, true])]

/-- R162, R714: AOJ and SOJ jump to E = 500, or go to PC + 1 = 101; the word before is one less, or one more. -/
theorem test_jump_conditions : conditionRows.all (fun r =>
    (Claims.aojRows.zip r.2).all (fun p =>
      decide (pcOf (exec (p.1.1 5 (direct 0o500)) (start std [(5, r.1 - 1)] [])) = some (if p.2 then 0o500 else 0o101))) &&
    (Claims.sojRows.zip r.2).all fun p =>
      decide (pcOf (exec (p.1.1 5 (direct 0o500)) (start std [(5, r.1 + 1)] [])) = some (if p.2 then 0o500 else 0o101)))
    = true := by decide +kernel

/-- R162, R714: AOS and SOS skip to PC + 2 = 102, or go to PC + 1 = 101. -/
theorem test_skip_conditions : conditionRows.all (fun r =>
    (Claims.aosRows.zip r.2).all (fun p =>
      decide (pcOf (exec (p.1.1 0 (direct 0o500)) (start std [] [(0o500, r.1 - 1)])) = some (if p.2 then 0o102 else 0o101))) &&
    (Claims.sosRows.zip r.2).all fun p =>
      decide (pcOf (exec (p.1.1 0 (direct 0o500)) (start std [] [(0o500, r.1 + 1)])) = some (if p.2 then 0o102 else 0o101)))
    = true := by decide +kernel

/-! ## Boolean vectors (table 4.1): a = 3, b = 5 -/

/-- The sixteen results of table 4.1, in the order of the opcodes. -/
def booleanResults : List Word :=
  [0o0, 0o1, 0o4, 0o5, 0o2, 0o3, 0o6, 0o7,
   0o777777_777770, 0o777777_777771, 0o777777_777774, 0o777777_777775, 0o777777_777772, 0o777777_777773, 0o777777_777776, 0o777777_777777]

/-- The sixteen instructions of the basic mode. -/
def basicBooleans : List BasicMaker :=
  [.setz, .and, .andca, .setm, .andcm, .seta, .xor, .ior,
   .andcb, .eqv, .setca, .orca, .setcm, .orcm, .orcb, .seto]

theorem test_boolean_basic : pass std ((basicBooleans.zip booleanResults).map fun p =>
    ⟨p.1 7 (direct 0o1000), [(7, 3)], [(0o1000, 5)], [(7, p.2)], [(0o1000, 5)], .none⟩) = true := by decide +kernel

/-- The sixteen instructions of the immediate mode. -/
def immediateBooleans : List BasicMaker :=
  [.setzi, .andi, .andcai, .setmi, .andcmi, .setai, .xori, .iori,
   .andcbi, .eqvi, .setcai, .orcai, .setcmi, .orcmi, .orcbi, .setoi]

theorem test_boolean_immediate : pass std ((immediateBooleans.zip booleanResults).map fun p =>
    ⟨p.1 7 (direct 5), [(7, 3)], [(0o1000, 5)], [(7, p.2)], [(0o1000, 5)], .none⟩) = true := by decide +kernel

/-- The sixteen instructions of the memory mode. -/
def memoryBooleans : List BasicMaker :=
  [.setzm, .andm, .andcam, .setmm, .andcmm, .setam, .xorm, .iorm,
   .andcbm, .eqvm, .setcam, .orcam, .setcmm, .orcmm, .orcbm, .setom]

theorem test_boolean_memory : pass std ((memoryBooleans.zip booleanResults).map fun p =>
    ⟨p.1 7 (direct 0o1000), [(7, 3)], [(0o1000, 5)], [(7, 3)], [(0o1000, p.2)], .none⟩) = true := by decide +kernel

/-- The sixteen instructions of the both mode. -/
def bothBooleans : List BasicMaker :=
  [.setzb, .andb, .andcab, .setmb, .andcmb, .setab, .xorb, .iorb,
   .andcbb, .eqvb, .setcab, .orcab, .setcmb, .orcmb, .orcbb, .setob]

theorem test_boolean_both : pass std ((bothBooleans.zip booleanResults).map fun p =>
    ⟨p.1 7 (direct 0o1000), [(7, 3)], [(0o1000, 5)], [(7, p.2)], [(0o1000, p.2)], .none⟩) = true := by decide +kernel

/-! ## Shift vectors (section 4) -/

theorem test_ash : pass std [
    ⟨.ash 5 (direct 0o2), [(5, 0o3)], [], [(5, 0o14)], [], .none⟩,
    ⟨.ash 5 (direct 0o1), [(5, 0o200000_000000)], [], [(5, 0)], [], ov⟩,
    ⟨.ash 5 (direct 0o42), [(5, 0o1)], [], [(5, 0o200000_000000)], [], .none⟩,
    ⟨.ash 5 (direct 0o43), [(5, 0o1)], [], [(5, 0)], [], ov⟩,
    ⟨.ash 5 (direct 0o1), [(5, 0o400000_000000)], [], [(5, 0o400000_000000)], [], ov⟩,
    ⟨.ash 5 (direct 0o1), [(5, 0o777777_777777)], [], [(5, 0o777777_777776)], [], .none⟩,
    ⟨.ash 5 (direct 0o400377), [(5, 0o777777_777777)], [], [(5, 0o777777_777777)], [], .none⟩,
    ⟨.ash 5 (direct 0o400377), [(5, 0o777777_777776)], [], [(5, 0o777777_777777)], [], .none⟩,
    ⟨.ash 5 (direct 0o400330), [(5, 0o1)], [], [(5, 0)], [], .none⟩,
    ⟨.ash 5 (direct 0o400330), [(5, 0o400000_000000)], [], [(5, 0o777777_777777)], [], .none⟩] = true := by decide +kernel

theorem test_rot : pass std [
    ⟨.rot 5 (direct 0o1), [(5, 0o400000_000000)], [], [(5, 0o1)], [], .none⟩,
    ⟨.rot 5 (direct 0o400377), [(5, 0o1)], [], [(5, 0o400000_000000)], [], .none⟩,
    ⟨.rot 5 (direct 0o44), [(5, 0o123456_654321)], [], [(5, 0o123456_654321)], [], .none⟩] = true := by decide +kernel

theorem test_lsh : pass std [
    ⟨.lsh 5 (direct 0o400335), [(5, 0o400000_000000)], [], [(5, 0o1)], [], .none⟩,
    ⟨.lsh 5 (direct 0o400377), [(5, 0o777777_777777)], [], [(5, 0o377777_777777)], [], .none⟩,
    ⟨.lsh 5 (direct 0o44), [(5, 0o1)], [], [(5, 0)], [], .none⟩] = true := by decide +kernel

theorem test_ashc : pass std [
    ⟨.ashc 5 (direct 0o1), [(5, 0), (6, 0o200000_000000)], [], [(5, 0o1), (6, 0)], [], .none⟩,
    ⟨.ashc 5 (direct 0o400377), [(5, 0o1), (6, 0)], [], [(5, 0), (6, 0o200000_000000)], [], .none⟩,
    ⟨.ashc 5 (direct 0o400377), [(5, 0o777777_777777), (6, 0o777777_777777)], [], [(5, 0o777777_777777), (6, 0o777777_777777)], [], .none⟩,
    ⟨.ashc 5 (direct 0o1), [(5, 0o777777_777777), (6, 0o777777_777777)], [], [(5, 0o777777_777777), (6, 0o777777_777776)], [], .none⟩,
    ⟨.ashc 5 (direct 0o1), [(5, 0o200000_000000), (6, 0)], [], [(5, 0), (6, 0)], [], ov⟩,
    ⟨.ashc 5 (direct 0o0), [(5, 0), (6, 0o400000_000001)], [], [(5, 0), (6, 0o400000_000001)], [], .none⟩] = true := by decide +kernel

theorem test_rotc : pass std [
    ⟨.rotc 5 (direct 0o1), [(5, 0o400000_000000), (6, 0)], [], [(5, 0), (6, 0o1)], [], .none⟩,
    ⟨.rotc 5 (direct 0o44), [(5, 0o1), (6, 0o2)], [], [(5, 0o2), (6, 0o1)], [], .none⟩,
    ⟨.rotc 5 (direct 0o400377), [(5, 0), (6, 0o1)], [], [(5, 0o400000_000000), (6, 0)], [], .none⟩] = true := by decide +kernel

theorem test_lshc : pass std [
    ⟨.lshc 5 (direct 0o1), [(5, 0), (6, 0o400000_000000)], [], [(5, 0o1), (6, 0)], [], .none⟩,
    ⟨.lshc 5 (direct 0o400377), [(5, 0o1), (6, 0)], [], [(5, 0), (6, 0o400000_000000)], [], .none⟩,
    ⟨.lshc 5 (direct 0o110), [(5, 0o777777_777777), (6, 0o777777_777777)], [], [(5, 0), (6, 0)], [], .none⟩] = true := by decide +kernel

/-! ## Single floating vectors (section 5) -/

theorem test_fad : pass std [
    ⟨.fad 5 (direct 0o1000), [(5, 0o201400_000000)], [(0o1000, 0o201400_000000)], [(5, 0o202400_000000)], [], .none⟩,
    ⟨.fad 5 (direct 0o1000), [(5, 0o576400_000000)], [(0o1000, 0o576400_000000)], [(5, 0o575400_000000)], [], .none⟩,
    ⟨.fad 5 (direct 0o1000), [(5, 0o201400_000000)], [(0o1000, 0o577400_000000)], [(5, 0o200400_000000)], [], .none⟩,
    ⟨.fad 5 (direct 0o1000), [(5, 0o201400_000000)], [(0o1000, 0o646400_000000)], [(5, 0o200777_777777)], [], .none⟩,
    ⟨.fad 5 (direct 0o1000), [(5, 0o201400_000000)], [(0o1000, 0o146400_000000)], [(5, 0o201400_000000)], [], .none⟩,
    ⟨.fad 5 (direct 0o1000), [(5, 0o576400_000000)], [(0o1000, 0o632400_000000)], [(5, 0o576377_777777)], [], .none⟩,
    ⟨.fad 5 (direct 0o1000), [(5, 0o200200_000000)], [(0o1000, 0)], [(5, 0o177400_000000)], [], .none⟩,
    ⟨.fad 5 (direct 0o1000), [(5, 0o577000_000000)], [(0o1000, 0)], [(5, 0o576400_000000)], [], .none⟩] = true := by decide +kernel

theorem test_fadr : pass std [
    ⟨.fadr 5 (direct 0o1000), [(5, 0o201400_000000)], [(0o1000, 0o646400_000000)], [(5, 0o201400_000000)], [], .none⟩,
    ⟨.fadr 5 (direct 0o1000), [(5, 0o201400_000000)], [(0o1000, 0o146400_000000)], [(5, 0o201400_000001)], [], .none⟩,
    ⟨.fadr 5 (direct 0o1000), [(5, 0o576400_000000)], [(0o1000, 0o631400_000000)], [(5, 0o576400_000000)], [], .none⟩,
    ⟨.fadr 5 (direct 0o1000), [(5, 0o576400_000000)], [(0o1000, 0o632400_000000)], [(5, 0o576400_000000)], [], .none⟩] = true := by decide +kernel

theorem test_fsb : pass std [
    ⟨.fsb 5 (direct 0o1000), [(5, 0o202400_000000)], [(0o1000, 0o201400_000000)], [(5, 0o201400_000000)], [], .none⟩,
    ⟨.fsb 5 (direct 0o1000), [(5, 0o201600_000005)], [(0o1000, 0o201600_000005)], [(5, 0)], [], .none⟩] = true := by decide +kernel

theorem test_fsbr : pass std [
    ⟨.fsbr 5 (direct 0o1000), [(5, 0o201400_000000)], [(0o1000, 0o202400_000000)], [(5, 0o576400_000000)], [], .none⟩] = true := by decide +kernel

theorem test_fmp : pass std [
    ⟨.fmp 5 (direct 0o1000), [(5, 0o202400_000000)], [(0o1000, 0o202600_000000)], [(5, 0o203600_000000)], [], .none⟩,
    ⟨.fmp 5 (direct 0o1000), [(5, 0o576400_000000)], [(0o1000, 0o202600_000000)], [(5, 0o575200_000000)], [], .none⟩,
    ⟨.fmp 5 (direct 0o1000), [(5, 0o1400_000000)], [(0o1000, 0o1400_000000)], [(5, 0o201400_000000)], [], fxu⟩] = true := by decide +kernel

theorem test_fmpr : pass std [
    ⟨.fmpr 5 (direct 0o1000), [(5, 0o200400_000000)], [(0o1000, 0o200400_000000)], [(5, 0o177400_000000)], [], .none⟩,
    ⟨.fmpr 5 (direct 0o1000), [(5, 0o377400_000000)], [(0o1000, 0o377400_000000)], [(5, 0o175400_000000)], [], fov⟩,
    ⟨.fmpr 5 (direct 0o1000), [(5, 0o576400_000000)], [(0o1000, 0o202600_000000)], [(5, 0o575200_000000)], [], .none⟩] = true := by decide +kernel

theorem test_fdv : pass std [
    ⟨.fdv 5 (direct 0o1000), [(5, 0o201400_000000)], [(0o1000, 0o202400_000000)], [(5, 0o200400_000000)], [], .none⟩,
    ⟨.fdv 5 (direct 0o1000), [(5, 0o201400_000000)], [(0o1000, 0o202600_000000)], [(5, 0o177525_252525)], [], .none⟩,
    ⟨.fdv 5 (direct 0o1000), [(5, 0o202400_000000)], [(0o1000, 0o202600_000000)], [(5, 0o200525_252525)], [], .none⟩,
    ⟨.fdv 5 (direct 0o1000), [(5, 0o201400_000000)], [(0o1000, 0o575400_000000)], [(5, 0o577400_000000)], [], .none⟩,
    ⟨.fdv 5 (direct 0o1000), [(5, 0)], [(0o1000, 0o201400_000000)], [(5, 0)], [], .none⟩,
    ⟨.fdv 5 (direct 0o1000), [(5, 0o201400_000000)], [(0o1000, 0)], [(5, 0o201400_000000)], [], fNoDivide⟩,
    ⟨.fdv 5 (direct 0o1000), [(5, 0o201400_000000)], [(0o1000, 0o201000_000000)], [(5, 0o201400_000000)], [], fNoDivide⟩,
    ⟨.fdv 5 (direct 0o1000), [(5, 0o201400_000000)], [(0o1000, 0o201100_000000)], [(5, 0o201400_000000)], [], fNoDivide⟩] = true := by decide +kernel

theorem test_fdvr : pass std [
    ⟨.fdvr 5 (direct 0o1000), [(5, 0o201400_000000)], [(0o1000, 0o202600_000000)], [(5, 0o177525_252525)], [], .none⟩,
    ⟨.fdvr 5 (direct 0o1000), [(5, 0o202400_000000)], [(0o1000, 0o202600_000000)], [(5, 0o200525_252525)], [], .none⟩] = true := by decide +kernel

theorem test_ufa : pass std [
    ⟨.ufa 5 (direct 0o1000), [(5, 0o201400_000000)], [(0o1000, 0o201400_000000)], [(6, 0o202400_000000)], [], .none⟩,
    ⟨.ufa 5 (direct 0o1000), [(5, 0o201600_000000)], [(0o1000, 0o201600_000000)], [(6, 0o202600_000000)], [], .none⟩,
    ⟨.ufa 5 (direct 0o1000), [(5, 0o202400_000000)], [(0o1000, 0o200400_000000)], [(6, 0o202500_000000)], [], .none⟩,
    ⟨.ufa 5 (direct 0o1000), [(5, 0o201400_000000)], [(0o1000, 0o576400_000000)], [(6, 0)], [], .none⟩,
    ⟨.ufa 5 (direct 0o1000), [(5, 0o201400_000000)], [(0o1000, 0o143400_000000)], [(6, 0o201400_000000)], [], .none⟩] = true := by decide +kernel

theorem test_fix : pass std [
    ⟨.fix 5 (direct 0o1000), [], [(0o1000, 0o202600_000000)], [(5, 0o3)], [], .none⟩,
    ⟨.fix 5 (direct 0o1000), [], [(0o1000, 0o577400_000000)], [(5, 0)], [], .none⟩,
    ⟨.fix 5 (direct 0o1000), [], [(0o1000, 0o576200_000000)], [(5, 0o777777_777777)], [], .none⟩,
    ⟨.fix 5 (direct 0o1000), [], [(0o1000, 0o575300_000000)], [(5, 0o777777_777776)], [], .none⟩,
    ⟨.fix 5 (direct 0o1000), [], [(0o1000, 0o243777_777777)], [(5, 0o377777_777400)], [], .none⟩,
    ⟨.fix 5 (direct 0o1000), [], [(0o1000, 0o534400_000000)], [(5, 0o600000_000000)], [], .none⟩,
    ⟨.fix 5 (direct 0o1000), [], [(0o1000, 0o244400_000000)], [(5, 0)], [], ov⟩,
    ⟨.fix 5 (direct 0o1000), [], [(0o1000, 0o533400_000000)], [(5, 0)], [], ov⟩] = true := by decide +kernel

theorem test_fixr : pass std [
    ⟨.fixr 5 (direct 0o1000), [], [(0o1000, 0o200400_000000)], [(5, 0o1)], [], .none⟩,
    ⟨.fixr 5 (direct 0o1000), [], [(0o1000, 0o577400_000000)], [(5, 0)], [], .none⟩,
    ⟨.fixr 5 (direct 0o1000), [], [(0o1000, 0o576200_000000)], [(5, 0o777777_777777)], [], .none⟩,
    ⟨.fixr 5 (direct 0o1000), [], [(0o1000, 0o201600_000000)], [(5, 0o2)], [], .none⟩,
    ⟨.fixr 5 (direct 0o1000), [], [(0o1000, 0o202500_000000)], [(5, 0o3)], [], .none⟩,
    ⟨.fixr 5 (direct 0o1000), [], [(0o1000, 0o575300_000000)], [(5, 0o777777_777776)], [], .none⟩,
    ⟨.fixr 5 (direct 0o1000), [], [(0o1000, 0o200200_000000)], [(5, 0)], [], .none⟩] = true := by decide +kernel

theorem test_fltr : pass std [
    ⟨.fltr 5 (direct 0o1000), [], [(0o1000, 0o3)], [(5, 0o202600_000000)], [], .none⟩,
    ⟨.fltr 5 (direct 0o1000), [], [(0o1000, 0)], [(5, 0)], [], .none⟩,
    ⟨.fltr 5 (direct 0o1000), [], [(0o1000, 0o777777_777777)], [(5, 0o576400_000000)], [], .none⟩,
    ⟨.fltr 5 (direct 0o1000), [], [(0o1000, 0o400000_000000)], [(5, 0o533400_000000)], [], .none⟩,
    ⟨.fltr 5 (direct 0o1000), [], [(0o1000, 0o377777_777777)], [(5, 0o244400_000000)], [], .none⟩,
    ⟨.fltr 5 (direct 0o1000), [], [(0o1000, 0o1000_000001)], [(5, 0o234400_000001)], [], .none⟩,
    ⟨.fltr 5 (direct 0o1000), [], [(0o1000, 0o1000_000002)], [(5, 0o234400_000001)], [], .none⟩,
    ⟨.fltr 5 (direct 0o1000), [], [(0o1000, 0o1000_000003)], [(5, 0o234400_000002)], [], .none⟩,
    ⟨.fltr 5 (direct 0o1000), [], [(0o1000, 0o776777_777777)], [(5, 0o543400_000000)], [], .none⟩] = true := by decide +kernel

theorem test_fsc : pass std [
    ⟨.fsc 5 (direct 0o3), [(5, 0o201400_000000)], [], [(5, 0o204400_000000)], [], .none⟩,
    ⟨.fsc 5 (direct 0o400377), [(5, 0o201400_000000)], [], [(5, 0o200400_000000)], [], .none⟩,
    ⟨.fsc 5 (direct 0o0), [(5, 0o200200_000000)], [], [(5, 0o177400_000000)], [], .none⟩,
    ⟨.fsc 5 (direct 0o1), [(5, 0o377400_000000)], [], [(5, 0o400_000000)], [], fov⟩,
    ⟨.fsc 5 (direct 0o400377), [(5, 0o400_000000)], [], [(5, 0o377400_000000)], [], fxu⟩] = true := by decide +kernel

/-- R158, R159: the other modes; the floating immediate is `E,,0`. 1.0 + 1.0 = 2.0, 2.0 - 1.0 = 1.0. -/
theorem test_float_add_modes : pass std [
    ⟨.fadm 5 (direct 0o1000), [(5, 0o201400_000000)], [(0o1000, 0o201400_000000)], [(5, 0o201400_000000)],
      [(0o1000, 0o202400_000000)], .none⟩,
    ⟨.fadb 5 (direct 0o1000), [(5, 0o201400_000000)], [(0o1000, 0o201400_000000)], [(5, 0o202400_000000)],
      [(0o1000, 0o202400_000000)], .none⟩,
    ⟨.fadri 5 (direct 0o201400), [(5, 0o201400_000000)], [], [(5, 0o202400_000000)], [], .none⟩,
    ⟨.fadrm 5 (direct 0o1000), [(5, 0o201400_000000)], [(0o1000, 0o201400_000000)], [(5, 0o201400_000000)],
      [(0o1000, 0o202400_000000)], .none⟩,
    ⟨.fadrb 5 (direct 0o1000), [(5, 0o201400_000000)], [(0o1000, 0o201400_000000)], [(5, 0o202400_000000)], [], .none⟩,
    ⟨.fsbm 5 (direct 0o1000), [(5, 0o202400_000000)], [(0o1000, 0o201400_000000)], [], [(0o1000, 0o201400_000000)], .none⟩,
    ⟨.fsbb 5 (direct 0o1000), [(5, 0o202400_000000)], [(0o1000, 0o201400_000000)], [(5, 0o201400_000000)], [], .none⟩,
    ⟨.fsbri 5 (direct 0o201400), [(5, 0o202400_000000)], [], [(5, 0o201400_000000)], [], .none⟩,
    ⟨.fsbrm 5 (direct 0o1000), [(5, 0o202400_000000)], [(0o1000, 0o201400_000000)], [], [(0o1000, 0o201400_000000)], .none⟩,
    ⟨.fsbrb 5 (direct 0o1000), [(5, 0o202400_000000)], [(0o1000, 0o201400_000000)], [(5, 0o201400_000000)], [], .none⟩]
    = true := by decide +kernel

/-- R158, R159: 2.0 * 3.0 = 6.0 and 1.0 / 2.0 = 0.5 in the other modes. -/
theorem test_float_multiply_divide_modes : pass std [
    ⟨.fmpm 5 (direct 0o1000), [(5, 0o202400_000000)], [(0o1000, 0o202600_000000)], [], [(0o1000, 0o203600_000000)], .none⟩,
    ⟨.fmpb 5 (direct 0o1000), [(5, 0o202400_000000)], [(0o1000, 0o202600_000000)], [(5, 0o203600_000000)], [], .none⟩,
    ⟨.fmpri 5 (direct 0o202600), [(5, 0o202400_000000)], [], [(5, 0o203600_000000)], [], .none⟩,
    ⟨.fmprm 5 (direct 0o1000), [(5, 0o202400_000000)], [(0o1000, 0o202600_000000)], [], [(0o1000, 0o203600_000000)], .none⟩,
    ⟨.fmprb 5 (direct 0o1000), [(5, 0o202400_000000)], [(0o1000, 0o202600_000000)], [(5, 0o203600_000000)], [], .none⟩,
    ⟨.fdvm 5 (direct 0o1000), [(5, 0o201400_000000)], [(0o1000, 0o202400_000000)], [], [(0o1000, 0o200400_000000)], .none⟩,
    ⟨.fdvb 5 (direct 0o1000), [(5, 0o201400_000000)], [(0o1000, 0o202400_000000)], [(5, 0o200400_000000)], [], .none⟩,
    ⟨.fdvri 5 (direct 0o202400), [(5, 0o201400_000000)], [], [(5, 0o200400_000000)], [], .none⟩,
    ⟨.fdvrm 5 (direct 0o1000), [(5, 0o201400_000000)], [(0o1000, 0o202400_000000)], [], [(0o1000, 0o200400_000000)], .none⟩,
    ⟨.fdvrb 5 (direct 0o1000), [(5, 0o201400_000000)], [(0o1000, 0o202400_000000)], [(5, 0o200400_000000)], [], .none⟩]
    = true := by decide +kernel

/-! ## Double and G floating vectors (section 6) -/

theorem test_dfad : pass std [
    ⟨.dfad 5 (direct 0o1000), [(5, 0o201400_000000), (6, 0)], [(0o1000, 0o201400_000000), (0o1001, 0)], [(5, 0o202400_000000), (6, 0)], [], .none⟩,
    ⟨.dfad 5 (direct 0o1000), [(5, 0o201400_000000), (6, 0)], [(0o1000, 0o103400_000000), (0o1001, 0)], [(5, 0o201400_000000), (6, 0o1)], [], .none⟩,
    ⟨.dfad 5 (direct 0o1000), [(5, 0o201400_000000), (6, 0o400000_000000)], [(0o1000, 0), (0o1001, 0)], [(5, 0o201400_000000), (6, 0)], [], .none⟩] = true := by decide +kernel

theorem test_dfad_under_truncates : pass truncates [
    ⟨.dfad 5 (direct 0o1000), [(5, 0o201400_000000), (6, 0)], [(0o1000, 0o103400_000000), (0o1001, 0)], [(5, 0o201400_000000), (6, 0)], [], .none⟩] = true := by decide +kernel

theorem test_dfsb : pass std [
    ⟨.dfsb 5 (direct 0o1000), [(5, 0o201400_000000), (6, 0)], [(0o1000, 0o202400_000000), (0o1001, 0)], [(5, 0o576400_000000), (6, 0)], [], .none⟩] = true := by decide +kernel

theorem test_dfmp : pass std [
    ⟨.dfmp 5 (direct 0o1000), [(5, 0o202400_000000), (6, 0)], [(0o1000, 0o202600_000000), (0o1001, 0)], [(5, 0o203600_000000), (6, 0)], [], .none⟩,
    ⟨.dfmp 5 (direct 0o1000), [(5, 0o202600_000000), (6, 0)], [(0o1000, 0o177525_252525), (0o1001, 0o252525_252525)], [(5, 0o201400_000000), (6, 0o100000_000000)], [], .none⟩] = true := by decide +kernel

theorem test_dfdv : pass std [
    ⟨.dfdv 5 (direct 0o1000), [(5, 0o201400_000000), (6, 0)], [(0o1000, 0o202400_000000), (0o1001, 0)], [(5, 0o200400_000000), (6, 0)], [], .none⟩,
    ⟨.dfdv 5 (direct 0o1000), [(5, 0o201400_000000), (6, 0)], [(0o1000, 0o202600_000000), (0o1001, 0)], [(5, 0o177525_252525), (6, 0o125252_525253)], [], .none⟩,
    ⟨.dfdv 5 (direct 0o1000), [(5, 0o201400_000000), (6, 0)], [(0o1000, 0), (0o1001, 0)], [(5, 0o201400_000000), (6, 0)], [], fNoDivide⟩] = true := by decide +kernel

theorem test_dfdv_under_truncates : pass truncates [
    ⟨.dfdv 5 (direct 0o1000), [(5, 0o201400_000000), (6, 0)], [(0o1000, 0o202600_000000), (0o1001, 0)], [(5, 0o177525_252525), (6, 0o125252_525252)], [], .none⟩] = true := by decide +kernel

theorem test_gfad : pass std [
    ⟨.gfad 5 (direct 0o1000), [(5, 0o200140_000000), (6, 0)], [(0o1000, 0o200140_000000), (0o1001, 0)], [(5, 0o200240_000000), (6, 0)], [], .none⟩] = true := by decide +kernel

theorem test_gfsb : pass std [
    ⟨.gfsb 5 (direct 0o1000), [(5, 0o200140_000000), (6, 0)], [(0o1000, 0o200240_000000), (0o1001, 0)], [(5, 0o577640_000000), (6, 0)], [], .none⟩] = true := by decide +kernel

theorem test_gfmp : pass std [
    ⟨.gfmp 5 (direct 0o1000), [(5, 0o200240_000000), (6, 0)], [(0o1000, 0o200260_000000), (0o1001, 0)], [(5, 0o200360_000000), (6, 0)], [], .none⟩] = true := by decide +kernel

theorem test_gfdv : pass std [
    ⟨.gfdv 5 (direct 0o1000), [(5, 0o200140_000000), (6, 0)], [(0o1000, 0o200240_000000), (0o1001, 0)], [(5, 0o200040_000000), (6, 0)], [], .none⟩,
    ⟨.gfdv 5 (direct 0o1000), [(5, 0o200140_000000), (6, 0)], [(0o1000, 0o200260_000000), (0o1001, 0)], [(5, 0o177752_525252), (6, 0o252525_252525)], [], .none⟩] = true := by decide +kernel

theorem test_gfix : pass std [
    ⟨.gfix 5 (direct 0o0) 0 (direct 0o1000), [], [(0o1000, 0o200260_000000), (0o1001, 0)], [(5, 0o3)], [], .none⟩,
    ⟨.gfix 5 (direct 0o0) 0 (direct 0o1000), [], [(0o1000, 0o204377_777777), (0o1001, 0o377700_000000)], [(5, 0o377777_777777)], [], .none⟩,
    ⟨.gfix 5 (direct 0o0) 0 (direct 0o1000), [], [(0o1000, 0o204440_000000), (0o1001, 0)], [(5, 0), (6, 0)], [], ov⟩] = true := by decide +kernel

theorem test_gfixr : pass std [
    ⟨.gfixr 5 (direct 0o0) 0 (direct 0o1000), [], [(0o1000, 0o577530_000000), (0o1001, 0)], [(5, 0o777777_777776)], [], .none⟩,
    ⟨.gfixr 5 (direct 0o0) 0 (direct 0o1000), [], [(0o1000, 0o200250_000000), (0o1001, 0)], [(5, 0o3)], [], .none⟩] = true := by decide +kernel

theorem test_dgfix : pass std [
    ⟨.dgfix 5 (direct 0o0) 0 (direct 0o1000), [], [(0o1000, 0o200260_000000), (0o1001, 0)], [(5, 0), (6, 0o3)], [], .none⟩,
    ⟨.dgfix 5 (direct 0o0) 0 (direct 0o1000), [], [(0o1000, 0o577640_000000), (0o1001, 0)], [(5, 0o777777_777777), (6, 0o777777_777777)], [], .none⟩,
    ⟨.dgfix 5 (direct 0o0) 0 (direct 0o1000), [], [(0o1000, 0o210640_000000), (0o1001, 0)], [(5, 0o200000_000000), (6, 0)], [], .none⟩,
    ⟨.dgfix 5 (direct 0o0) 0 (direct 0o1000), [], [(0o1000, 0o210740_000000), (0o1001, 0)], [(5, 0), (6, 0)], [], ov⟩] = true := by decide +kernel

theorem test_dgfixr : pass std [
    ⟨.dgfixr 5 (direct 0o0) 0 (direct 0o1000), [], [(0o1000, 0o200040_000000), (0o1001, 0)], [(5, 0), (6, 0o1)], [], .none⟩] = true := by decide +kernel

theorem test_gfsc : pass std [
    ⟨.gfsc 5 (direct 0o0) 0 (direct 0o3), [(5, 0o200140_000000), (6, 0)], [], [(5, 0o200440_000000), (6, 0)], [], .none⟩,
    ⟨.gfsc 5 (direct 0o0) 0 (direct 0o400375), [(5, 0o200440_000000), (6, 0)], [], [(5, 0o200140_000000), (6, 0)], [], .none⟩,
    ⟨.gfsc 5 (direct 0o0) 0 (direct 0o377), [(5, 0o200140_000000), (6, 0)], [], [(5, 0o240040_000000), (6, 0)], [], .none⟩] = true := by decide +kernel

theorem test_gfltr : pass std [
    ⟨.gfltr 5 (direct 0o0) 0 (direct 0o1000), [], [(0o1000, 0o3)], [(5, 0o200260_000000), (6, 0)], [], .none⟩,
    ⟨.gfltr 5 (direct 0o0) 0 (direct 0o1000), [], [(0o1000, 0o400000_000000)], [(5, 0o573340_000000), (6, 0)], [], .none⟩] = true := by decide +kernel

theorem test_dgfltr : pass std [
    ⟨.dgfltr 5 (direct 0o0) 0 (direct 0o1000), [], [(0o1000, 0), (0o1001, 0o3)], [(5, 0o200260_000000), (6, 0)], [], .none⟩,
    ⟨.dgfltr 5 (direct 0o0) 0 (direct 0o1000), [], [(0o1000, 0o777777_777777), (0o1001, 0o777777_777777)], [(5, 0o577640_000000), (6, 0)], [], .none⟩,
    ⟨.dgfltr 5 (direct 0o0) 0 (direct 0o1000), [], [(0o1000, 0o200_000000), (0o1001, 0o1)], [(5, 0o207540_000000), (6, 0)], [], .none⟩] = true := by decide +kernel

theorem test_gsngl : pass std [
    ⟨.gsngl 5 (direct 0o0) 0 (direct 0o1000), [], [(0o1000, 0o200140_000000), (0o1001, 0)], [(5, 0o201400_000000)], [], .none⟩,
    ⟨.gsngl 5 (direct 0o0) 0 (direct 0o1000), [], [(0o1000, 0o177752_525252), (0o1001, 0o252525_252525)], [(5, 0o177525_252525)], [], .none⟩,
    ⟨.gsngl 5 (direct 0o0) 0 (direct 0o1000), [], [(0o1000, 0o200140_000000), (0o1001, 0o20000_000000)], [(5, 0o201400_000001)], [], .none⟩,
    ⟨.gsngl 5 (direct 0o0) 0 (direct 0o1000), [], [(0o1000, 0o231140_000000), (0o1001, 0)], [(5, 0o111400_000000)], [], fov⟩] = true := by decide +kernel

theorem test_gdble : pass std [
    ⟨.gdble 5 (direct 0o0) 0 (direct 0o1000), [], [(0o1000, 0o201400_000000)], [(5, 0o200140_000000), (6, 0)], [], .none⟩,
    ⟨.gdble 5 (direct 0o0) 0 (direct 0o1000), [], [(0o1000, 0o576400_000000)], [(5, 0o577640_000000), (6, 0)], [], .none⟩,
    ⟨.gdble 5 (direct 0o0) 0 (direct 0o1000), [], [(0o1000, 0o177525_252525)], [(5, 0o177752_525252), (6, 0o240000_000000)], [], .none⟩] = true := by decide +kernel

/-! ## Byte vectors (section 7) -/

theorem test_ldb : pass std [
    ⟨.ldb 5 (direct 0o1000), [], [(0o100, 0o123456_765432), (0o1000, 0o600_000100)], [(5, 0o32)], [], .none⟩,
    ⟨.ldb 5 (direct 0o1000), [], [(0o100, 0o123456_765432), (0o1000, 0o60600_000100)], [(5, 0o54)], [], .none⟩,
    ⟨.ldb 5 (direct 0o1000), [], [(0o100, 0o123456_765432), (0o1000, 0o330600_000100)], [(5, 0o23)], [], .none⟩,
    ⟨.ldb 5 (direct 0o1000), [], [(0o100, 0o123456_765432), (0o1000, 0o440600_000100)], [(5, 0)], [], .none⟩,
    ⟨.ldb 5 (direct 0o1000), [], [(0o100, 0o123456_765432), (0o1000, 0o4400_000100)], [(5, 0o123456_765432)], [], .none⟩,
    ⟨.ldb 5 (direct 0o1000), [], [(0o100, 0o123456_765432), (0o1000, 0o2200_000100)], [(5, 0o765432)], [], .none⟩,
    ⟨.ldb 5 (direct 0o1000), [], [(0o100, 0o123456_765432), (0o1000, 0o4600_000100)], [(5, 0o123456_765432)], [], .none⟩,
    ⟨.ldb 5 (direct 0o1000), [], [(0o100, 0o123456_765432), (0o1000, 0o100)], [(5, 0)], [], .none⟩] = true := by decide +kernel

theorem test_dpb : pass std [
    ⟨.dpb 5 (direct 0o1000), [(5, 0o5)], [(0o1000, 0o360600_000100), (0o100, 0)], [], [(0o100, 0o50000_000000)], .none⟩,
    ⟨.dpb 5 (direct 0o1000), [(5, 0o77)], [(0o1000, 0o410600_000100), (0o100, 0)], [], [(0o100, 0o700000_000000)], .none⟩,
    ⟨.dpb 5 (direct 0o1000), [(5, 0o77)], [(0o1000, 0o440600_000100), (0o100, 0o1_000002)], [], [(0o100, 0o1_000002)], .none⟩,
    ⟨.dpb 5 (direct 0o1000), [(5, 0o1_000002)], [(0o1000, 0o4400_000100), (0o100, 0)], [], [(0o100, 0o1_000002)], .none⟩] = true := by decide +kernel

theorem test_ibp : pass std [
    ⟨.ibp (direct 0o1000), [], [(0o100, 0o123456_765432), (0o1000, 0o440600_000100)], [], [(0o1000, 0o360600_000100)], .none⟩,
    ⟨.ibp (direct 0o1000), [], [(0o100, 0o123456_765432), (0o1000, 0o600_000100)], [], [(0o1000, 0o360600_000101)], .none⟩,
    ⟨.ibp (direct 0o1000), [], [(0o100, 0o123456_765432), (0o1000, 0o10700_777777)], [], [(0o1000, 0o350700_000000)], .none⟩,
    ⟨.ibp (direct 0o1000), [], [(0o100, 0o123456_765432), (0o1000, 0o4400_000100)], [], [(0o1000, 0o4400_000101)], .none⟩,
    ⟨.ibp (direct 0o1000), [], [(0o100, 0o123456_765432), (0o1000, 0o7700_000100)], [], [(0o1000, 0o457700_000101)], .none⟩,
    ⟨.ibp (direct 0o1000), [], [(0o100, 0o123456_765432), (0o1000, 0o100)], [], [(0o1000, 0o100)], .none⟩] = true := by decide +kernel

theorem test_ildb : pass std [
    ⟨.ildb 5 (direct 0o1000), [], [(0o100, 0o123456_765432), (0o1000, 0o440700_000200), (0o200, 0o604000_000000)], [(5, 0o141)], [(0o1000, 0o350700_000200)], .none⟩] = true := by decide +kernel

theorem test_idpb : pass std [
    ⟨.idpb 5 (direct 0o1000), [(5, 0o101)], [(0o100, 0o123456_765432), (0o1000, 0o10700_000300), (0o301, 0)], [], [(0o301, 0o404000_000000), (0o1000, 0o350700_000301)], .none⟩] = true := by decide +kernel

theorem test_adjbp : pass std [
    ⟨.adjbp 5 (direct 0o1000), [(5, 0o1)], [(0o100, 0o123456_765432), (0o1000, 0o440600_001000)], [(5, 0o360600_001000)], [], .none⟩,
    ⟨.adjbp 5 (direct 0o1000), [(5, 0o7)], [(0o100, 0o123456_765432), (0o1000, 0o440600_001000)], [(5, 0o360600_001001)], [], .none⟩,
    ⟨.adjbp 5 (direct 0o1000), [(5, 0o777777777777)], [(0o100, 0o123456_765432), (0o1000, 0o440600_001000)], [(5, 0o60600_000777)], [], .none⟩,
    ⟨.adjbp 5 (direct 0o1000), [(5, 0o0)], [(0o100, 0o123456_765432), (0o1000, 0o440600_001000)], [(5, 0o600_000777)], [], .none⟩,
    ⟨.adjbp 5 (direct 0o1000), [(5, 0o2)], [(0o100, 0o123456_765432), (0o1000, 0o360600_001000)], [(5, 0o220600_001000)], [], .none⟩,
    ⟨.adjbp 5 (direct 0o1000), [(5, 0o6)], [(0o100, 0o123456_765432), (0o1000, 0o360600_001000)], [(5, 0o360600_001001)], [], .none⟩,
    ⟨.adjbp 5 (direct 0o1000), [(5, 0o777777777772)], [(0o100, 0o123456_765432), (0o1000, 0o360600_001000)], [(5, 0o360600_000777)], [], .none⟩,
    ⟨.adjbp 5 (direct 0o1000), [(5, 0o5)], [(0o100, 0o123456_765432), (0o1000, 0o60600_001000)], [(5, 0o140600_001001)], [], .none⟩,
    ⟨.adjbp 5 (direct 0o1000), [(5, 0o3)], [(0o100, 0o123456_765432), (0o1000, 0o350700_001000)], [(5, 0o100700_001000)], [], .none⟩,
    ⟨.adjbp 5 (direct 0o1000), [(5, 0o5)], [(0o100, 0o123456_765432), (0o1000, 0o350700_001000)], [(5, 0o350700_001001)], [], .none⟩,
    ⟨.adjbp 5 (direct 0o1000), [(5, 0o1)], [(0o100, 0o123456_765432), (0o1000, 0o10700_001000)], [(5, 0o350700_001001)], [], .none⟩,
    ⟨.adjbp 5 (direct 0o1000), [(5, 0o0)], [(0o100, 0o123456_765432), (0o1000, 0o10700_001000)], [(5, 0o10700_001000)], [], .none⟩,
    ⟨.adjbp 5 (direct 0o1000), [(5, 0o1)], [(0o100, 0o123456_765432), (0o1000, 0o444400_001000)], [(5, 0o4400_001000)], [], .none⟩,
    ⟨.adjbp 5 (direct 0o1000), [(5, 0o1)], [(0o100, 0o123456_765432), (0o1000, 0o1100_001000)], [(5, 0o331100_001001)], [], .none⟩,
    ⟨.adjbp 5 (direct 0o1000), [(5, 0o1)], [(0o100, 0o123456_765432), (0o1000, 0o622_777777)], [(5, 0o360622_000000)], [], .none⟩,
    ⟨.adjbp 5 (direct 0o1000), [(5, 0o3)], [(0o100, 0o123456_765432), (0o1000, 0o1000)], [(5, 0o1000)], [], .none⟩,
    ⟨.adjbp 5 (direct 0o1000), [(5, 0o1)], [(0o100, 0o123456_765432), (0o1000, 0o4600_001000)], [(5, 0o1)], [], noDivide⟩] = true := by decide +kernel

/-- R507: a local pointer with S = 0 and P = 30 traps. -/
theorem test_byte_traps :
    faultOf (exec (.ldb 5 (direct 0o1000)) (start std [] [(0o1000, 0o360000_000100)])) = some (.bpTrap .owl 30 0) ∧
    faultOf (exec (.ibp (direct 0o1000)) (start std [] [(0o1000, 0o360000_000100)])) = some (.bpTrap .owl 30 0) := by
  decide +kernel

/-- A machine with a pointer to the word at 200 octal, all of which is written, and one address at which writes fail. -/
def writeProtected (a : Nat) : State :=
  { start std [] [(0o1000, 0o360600_000200), (0o200, 0o000022_000000)] with writeFaults := [a] }

/-- R105, R511, R514: where the write of the byte's word fails DPB and IDPB end with MemFault; LDB writes nothing and goes on,
and so does DPB where the write fails at another address. -/
theorem test_byte_write_fails :
    faultOf (exec (.dpb 5 (direct 0o1000)) (writeProtected 0o200)) = some (.memFault (.writeRefused 0o200)) ∧
    faultOf (exec (.idpb 5 (direct 0o1000)) (writeProtected 0o200)) = some (.memFault (.writeRefused 0o200)) ∧
    answers (exec (.ldb 5 (direct 0o1000)) (writeProtected 0o200)) = true ∧
    answers (exec (.dpb 5 (direct 0o1000)) (writeProtected 0o201)) = true := by decide +kernel

/-- R502, R504, R509 with EXTENDED: a one-word global of code 61 (P 36, S 7), a two-word local and a two-word global. -/
theorem test_extended_pointers : pass extended [
    ⟨.ildb 5 (direct 0o1000), [], [(0o1000, 0o610000_000200), (0o200, 0o604000_000000)], [(5, 0o141)],
      [(0o1000, 0o620000_000200)], .none⟩,
    ⟨.ibp (direct 0o1000), [], [(0o1000, 0o000640_000000), (0o1001, 0o400000_000777)], [],
      [(0o1000, 0o360640_000000), (0o1001, 0o400000_001000)], .none⟩,
    ⟨.ldb 5 (direct 0o1000), [], [(0o1000, 0o060640_000000), (0o1001, 0o000001_000200), (0o1_000200, 0o7700)], [(5, 0o77)],
      [], .none⟩] = true := by decide +kernel

/-! ## The step -/

/-- 95_test_vectors.md program 1: `ADD 1,2` at 100 with AC 1 = 0 and AC 2 = 3, and R712's HALT. -/
theorem test_step_add_and_halt :
    pcOf (step (start std [(2, 3)] [(0o100, 0o270040_000002)])) = some 0o101 ∧
    step (start std [] [(0o100, 0o254200_000000)]) = .next (haltRun (start std [] [(0o100, 0o254200_000000)])) :=
  ⟨by decide +kernel, rfl⟩

/-- R712, R701: an unwritten word at PC; R156: opcode 255; R711: an indirect word that names itself. -/
theorem test_step_stops :
    faultOf (step (start std [] [])) = some (.readUnwritten 0o100) ∧
    refusalOf (step (start std [] [(0o100, 0o255000_000000)])) = some (.notInCore 0o255 none) := by decide +kernel

/-- R152, R712: GFIX through its two words; the extended word stands at the E of the first. -/
theorem test_step_extend :
    (match step (start std [] [(0o100, 0o123240_000300), (0o300, 0o024000_001000), (0o1000, 0o200260_000000), (0o1001, 0)]) with
      | .next t => decide (t.ac 5 = 3 ∧ t.pc = 0o101)
      | .fault _ => false
      | .refused _ => false) = true := by decide +kernel

/-- R711: X adds the right half of the index register modulo 2^18, and I goes on with the word at E. -/
theorem test_effective_address :
    effAddr (start std [(3, 0o777777_777777)] []) ⟨false, 3, 0⟩ = .ok 0o777777 ∧
    effAddr (start std [(3, 2)] [(0o1002, 0o000000_000777)]) ⟨true, 3, 0o1000⟩ = .ok 0o777 ∧
    effAddr (start std [] []) ⟨true, 0, 0o1000⟩ = .error (.fault (.unwritten 0o1000)) := by decide +kernel

/-- R320: the counts of table 4.2. -/
theorem test_shift_counts : [countOf 0o777777, countOf 0o400000, countOf 0o377, countOf 0o777000, countOf 0o44] =
    [-1, -256, 255, -256, 36] := by decide

/-- Row by row of the opcode table, the word placed where the step fetches runs as the first instruction after reset. -/
theorem test_with_fetch_word :
    answers (step (State.reset.withFetchWord 36 0o271_000_000000)) = true ∧
    faultOf (step (State.reset.withFetchWord 36 0o023_000_000000)) = none := by decide +kernel

/-! ## Witnesses: for each statement with hypotheses, a state and operands that meet them together, clause by clause -/

/-- A running machine with 1.0 in AC 5 and 2.0 at 1000, 1001 octal, and one word of code at 100. -/
def usual (cfg : Params) (code : Word) : State :=
  start cfg [(5, 0o201400_000000)] [(0o100, code), (0o1000, 0o202400_000000), (0o1001, 0)]

/-- R158: E and the operand of each mode. -/
theorem witness_operands :
    effAddr (usual std 0) (direct 0o1000) = .ok 0o1000 ∧
    (∀ m : Mode, ∃ b, Claims.operandIs m Claims.zeroLeft (usual std 0) 0o1000 b) ∧
    (∀ m : Mode, ∃ b, Claims.operandIs m Claims.zeroRight (usual std 0) 0o1000 b) ∧
    (∀ m : MoveMode, ∃ x, Claims.moveOperandIs m (usual std 0) 5 0o1000 x) ∧
    Claims.pairAt (usual std 0) 0o1000 (0o202400_000000, 0) := by
  refine ⟨by decide +kernel, ?_, ?_, ?_, ⟨by decide +kernel, by decide +kernel⟩⟩
  · intro m; cases m
    case immediate => exact ⟨_, rfl⟩
    all_goals exact ⟨0o202400_000000, by unfold Claims.operandIs; decide +kernel⟩
  · intro m; cases m
    case immediate => exact ⟨_, rfl⟩
    all_goals exact ⟨0o202400_000000, by unfold Claims.operandIs; decide +kernel⟩
  · intro m; cases m
    case immediate => exact ⟨_, rfl⟩
    case memory => exact ⟨_, rfl⟩
    all_goals exact ⟨0o202400_000000, by unfold Claims.moveOperandIs; decide +kernel⟩

theorem witness_AddStoresTheSum : ∃ (s : State) (a : AddrSpec) (e : Half), effAddr s a = .ok e ∧
    ∀ m : Mode, ∃ b, Claims.operandIs m Claims.zeroLeft s e b :=
  ⟨_, _, _, witness_operands.1, witness_operands.2.1⟩

theorem witness_SubStoresTheDifference : ∃ (s : State) (a : AddrSpec) (e : Half), effAddr s a = .ok e ∧
    ∀ m : Mode, ∃ b, Claims.operandIs m Claims.zeroLeft s e b :=
  ⟨_, _, _, witness_operands.1, witness_operands.2.1⟩

theorem witness_ImulStoresTheProduct : ∃ (s : State) (a : AddrSpec) (e : Half), effAddr s a = .ok e ∧
    ∀ m : Mode, ∃ b, Claims.operandIs m Claims.zeroLeft s e b :=
  ⟨_, _, _, witness_operands.1, witness_operands.2.1⟩

theorem witness_MulStoresTheDoubleProduct : ∃ (s : State) (a : AddrSpec) (e : Half), effAddr s a = .ok e ∧
    ∀ m : Mode, ∃ b, Claims.operandIs m Claims.zeroLeft s e b :=
  ⟨_, _, _, witness_operands.1, witness_operands.2.1⟩

theorem witness_FloatAddAndSubtractAreExact : ∃ (s : State) (a : AddrSpec) (e : Half), effAddr s a = .ok e ∧
    ∀ m : Mode, ∃ b, Claims.operandIs m Claims.zeroRight s e b :=
  ⟨_, _, _, witness_operands.1, witness_operands.2.2.1⟩

theorem witness_BooleanFunctionsBitByBit : ∀ row ∈ Claims.booleanTable, ∃ (s : State) (a : AddrSpec) (e : Half) (b : Word),
    effAddr s a = .ok e ∧ Claims.operandIs row.2.1 Claims.zeroLeft s e b := fun row _ =>
  ⟨_, _, _, (witness_operands.2.1 row.2.1).choose, witness_operands.1, (witness_operands.2.1 row.2.1).choose_spec⟩

theorem witness_MovnStoresTheNegative : ∃ (s : State) (ac : AcNum) (a : AddrSpec) (e : Half), effAddr s a = .ok e ∧
    ∀ m : MoveMode, ∃ x, Claims.moveOperandIs m s ac e x :=
  ⟨_, _, _, _, witness_operands.1, witness_operands.2.2.2.1⟩

theorem witness_MovmStoresTheMagnitude : ∃ (s : State) (ac : AcNum) (a : AddrSpec) (e : Half), effAddr s a = .ok e ∧
    ∀ m : MoveMode, ∃ x, Claims.moveOperandIs m s ac e x :=
  ⟨_, _, _, _, witness_operands.1, witness_operands.2.2.2.1⟩

theorem witness_DoubleWordsAddAndSubtract : ∃ (s : State) (a : AddrSpec) (e : Half) (d : Word × Word), effAddr s a = .ok e ∧
    Claims.pairAt s e d := ⟨_, _, _, _, witness_operands.1, witness_operands.2.2.2.2⟩

theorem witness_DmovnNegatesDoubleWords : ∃ (s : State) (a : AddrSpec) (e : Half) (d : Word × Word), effAddr s a = .ok e ∧
    Claims.pairAt s e d := ⟨_, _, _, _, witness_operands.1, witness_operands.2.2.2.2⟩

theorem witness_DmulStoresTheQuadProduct : ∃ (s : State) (a : AddrSpec) (e : Half) (d : Word × Word), effAddr s a = .ok e ∧
    Claims.pairAt s e d := ⟨_, _, _, _, witness_operands.1, witness_operands.2.2.2.2⟩

theorem witness_IncrementsAddOne : ∃ (s : State) (a : AddrSpec) (e : Half) (x : Word), effAddr s a = .ok e ∧
    s.readWord (loc e) = some x := ⟨_, _, _, _, witness_operands.1, witness_operands.2.2.2.2.1⟩

theorem witness_DecrementsSubtractOne : ∃ (s : State) (a : AddrSpec) (e : Half) (x : Word), effAddr s a = .ok e ∧
    s.readWord (loc e) = some x := ⟨_, _, _, _, witness_operands.1, witness_operands.2.2.2.2.1⟩

/-! ### The machine -/

theorem witness_ResetIsClearAndUnwritten : 16 ≤ (0o20 : MemAddr).toNat := by decide

theorem witness_StepRunsTheDecodedInstruction :
    (∃ s w i e, s.run = .running ∧ s.readWord (loc s.pc) = some w ∧ effAddr s (addrOf w) = .ok e ∧
      decode [w] = .ok (i, [])) ∧
    (∃ s w i e x e1, s.run = .running ∧ s.readWord (loc s.pc) = some w ∧ effAddr s (addrOf w) = .ok e ∧
      opOf w = 0o123#9 ∧ s.readWord (loc e) = some x ∧ effAddr s (addrOf x) = .ok e1 ∧ decode [w, x] = .ok (i, [])) :=
  ⟨⟨usual std 0o270240_001000, 0o270240_001000, .add 5 (direct 0o1000), 0o1000, by decide +kernel⟩,
   ⟨start std [] [(0o100, 0o123240_000300), (0o300, 0o024000_001000)], 0o123240_000300,
     .gfix 5 (direct 0o300) 0 (direct 0o1000), 0o300, 0o024000_001000, 0o1000, by decide +kernel⟩⟩

theorem witness_HaltAndStoppedMachines :
    (∃ s w e, s.run = .running ∧ s.readWord (loc s.pc) = some w ∧ opOf w = 0o254#9 ∧ acOf w = 4#4 ∧
      effAddr s (addrOf w) = .ok e) ∧
    (∃ s : State, s.run = .halted) ∧ (∃ (s : State) (f : Fault), s.run = .faulted f) ∧
    (∃ (s : State) (r : Refusal), s.run = .refused r) :=
  ⟨⟨usual std 0o254200_000000, 0o254200_000000, 0, by decide +kernel⟩,
   ⟨{ State.reset with run := .halted }, rfl⟩, ⟨{ State.reset with run := .faulted .indirectionCycle }, _, rfl⟩,
   ⟨{ State.reset with run := .refused (.notInCore 0 none) }, _, rfl⟩⟩

/-- Opcode 0; opcode 254 with AC field 0; extended opcodes 020 and 032; HAS_GFLOAT = false. -/
theorem witness_WordsOutsideTheMapAreRefused :
    (∃ s w e, s.run = .running ∧ s.readWord (loc s.pc) = some w ∧ effAddr s (addrOf w) = .ok e ∧
      opOf w = 0 ∧ ¬ (opOf w = 0o254#9 ∧ acOf w = 4#4)) ∧
    ¬ Claims.coreOpcode 0 ∧ ¬ Claims.coreOpcode 0o254 ∧ ¬ (254#9 = 0o254#9 ∧ (0 : AcNum) = 4#4) ∧
    (∃ s w e x e1, s.run = .running ∧ s.readWord (loc s.pc) = some w ∧ effAddr s (addrOf w) = .ok e ∧ opOf w = 0o123#9 ∧
      s.readWord (loc e) = some x ∧ effAddr s (addrOf x) = .ok e1 ∧ ¬ (0o21 ≤ (opOf x).toNat ∧ (opOf x).toNat ≤ 0o31)) ∧
    (∃ s w e x e1, s.run = .running ∧ s.readWord (loc s.pc) = some w ∧ effAddr s (addrOf w) = .ok e ∧ opOf w = 0o123#9 ∧
      s.readWord (loc e) = some x ∧ effAddr s (addrOf x) = .ok e1 ∧ ¬ (0o21 ≤ (opOf x).toNat ∧ (opOf x).toNat ≤ 0o31)) ∧
    noGfloat.hasGfloat = false :=
  ⟨⟨usual std 0, 0, 0, by decide +kernel⟩, by unfold Claims.coreOpcode; decide, by unfold Claims.coreOpcode; decide, by decide,
   ⟨start std [] [(0o100, 0o123240_000300), (0o300, 0o020000_001000)], 0o123240_000300, 0o300, 0o020000_001000, 0o1000,
     by decide +kernel⟩,
   ⟨start std [] [(0o100, 0o123240_000300), (0o300, 0o032000_001000)], 0o123240_000300, 0o300, 0o032000_001000, 0o1000,
     by decide +kernel⟩, rfl⟩

theorem witness_UnwrittenWordsFaultTheFetch :
    (State.reset.run = .running ∧ State.reset.readWord (loc State.reset.pc) = none) ∧
    (∃ s w x, s.run = .running ∧ s.readWord (loc s.pc) = some w ∧
      effAddr s (addrOf w) = .error (.fault (.unwritten x))) ∧
    (∃ s w e, s.run = .running ∧ s.readWord (loc s.pc) = some w ∧ effAddr s (addrOf w) = .ok e ∧ opOf w = 0o123#9 ∧
      s.readWord (loc e) = none) ∧
    (∃ s w e x y, s.run = .running ∧ s.readWord (loc s.pc) = some w ∧ effAddr s (addrOf w) = .ok e ∧ opOf w = 0o123#9 ∧
      s.readWord (loc e) = some x ∧ effAddr s (addrOf x) = .error (.fault (.unwritten y))) :=
  ⟨by decide +kernel, ⟨start std [] [(0o100, 0o270060_001000)], 0o270060_001000, 0o1000, by decide +kernel⟩,
   ⟨start std [] [(0o100, 0o123000_001000)], 0o123000_001000, 0o1000, by decide +kernel⟩,
   ⟨start std [] [(0o100, 0o123000_000300), (0o300, 0o024020_001000)], 0o123000_000300, 0o300, 0o024020_001000, 0o1000,
     by decide +kernel⟩⟩

/-- The first word unwritten, with and without the G format, and the second word unwritten beside a written first. -/
theorem witness_UnwrittenOperandsFault :
    Claims.readsWordAt (.add 5 (direct 0o1000)) = some (direct 0o1000) ∧
    Claims.readsPairAt (.dadd 5 (direct 0o1000)) = some (direct 0o1000) ∧
    Claims.readsPairAt (.gfad 5 (direct 0o1000)) = some (direct 0o1000) ∧
    Claims.needsGfloat (.add 5 (direct 0o1000)) = false ∧ Claims.needsGfloat (.dadd 5 (direct 0o1000)) = false ∧
    (∀ cfg ∈ [std, noGfloat], effAddr (start cfg [] []) (direct 0o1000) = .ok 0o1000 ∧
      (start cfg [] []).readWord (loc 0o1000) = none) ∧ State.reset.cfg.hasGfloat = true ∧
    (∃ s, effAddr s (direct 0o1000) = .ok 0o1000 ∧ s.cfg.hasGfloat = true ∧ s.readWord (loc 0o1000) ≠ none ∧
      s.readWord (Claims.succAddr s.cfg 0o1000) = none) :=
  ⟨rfl, rfl, rfl, rfl, rfl, by decide +kernel, rfl, ⟨start std [] [(0o1000, 0)], by decide +kernel⟩⟩

/-- An indirect word that names itself. -/
theorem witness_IndirectionCyclesNeverAnswer :
    ∃ (s : State) (P : AddrSpec → Prop) (w : Word), P (addrOf w) ∧ s.run = .running ∧ s.readWord (loc s.pc) = some w ∧
      ∀ a, P a → a.i = true ∧ ∃ w, s.readWord (loc (BitVec.ofNat 18
        (a.y.toNat + if a.x = 0 then 0 else (s.ac a.x).toNat))) = some w ∧ P (addrOf w) := by
  refine ⟨start std [] [(0o100, 0o270020_001000), (0o1000, 0o000020_001000)], fun a => a = ⟨true, 0, 0o1000⟩,
    0o270020_001000, by decide, rfl, by decide +kernel, ?_⟩
  rintro a rfl
  exact ⟨rfl, 0o000020_001000, by decide +kernel, by decide⟩

/-- The same indirect word, named by the extended word after opcode 123. -/
theorem witness_IndirectionCyclesNeverAnswer_extend :
    ∃ (s : State) (P : AddrSpec → Prop) (w x : Word) (e : Half), s.run = .running ∧ s.readWord (loc s.pc) = some w ∧
      effAddr s (addrOf w) = .ok e ∧ opOf w = 0o123#9 ∧ s.readWord (loc e) = some x ∧ P (addrOf x) ∧
      ∀ a, P a → a.i = true ∧ ∃ w, s.readWord (loc (BitVec.ofNat 18
        (a.y.toNat + if a.x = 0 then 0 else (s.ac a.x).toNat))) = some w ∧ P (addrOf w) := by
  refine ⟨start std [] [(0o100, 0o123000_000300), (0o300, 0o024020_001000), (0o1000, 0o000020_001000)],
    fun a => a = ⟨true, 0, 0o1000⟩, 0o123000_000300, 0o024020_001000, 0o300, rfl, by decide +kernel, by decide +kernel,
    by decide, by decide +kernel, by decide, ?_⟩
  rintro a rfl
  exact ⟨rfl, 0o000020_001000, by decide +kernel, by decide⟩

/-- A local pointer whose byte is reached through an indirect word that names itself, advanced or not. -/
theorem witness_IndirectionCyclesNeverAnswer_bytes :
    ∃ (s : State) (P : AddrSpec → Prop) (w0 : Word) (bp : Bp), effAddr s (direct 0o1000) = .ok 0o1000 ∧
      Claims.PointerAt s 0o1000 w0 bp ∧ bp.form = .owl ∧
      (∀ row ∈ Claims.reachingInstrs 5 (direct 0o1000) bp, P ⟨row.2.i, row.2.x, row.2.y.setWidth 18⟩) ∧
      ∀ a, P a → a.i = true ∧ ∃ w, s.readWord (loc (BitVec.ofNat 18
        (a.y.toNat + if a.x = 0 then 0 else (s.ac a.x).toNat))) = some w ∧ P (addrOf w) := by
  refine ⟨start std [] [(0o1000, 0o360620_000200), (0o200, 0o000020_000200)], fun a => a = ⟨true, 0, 0o200⟩,
    0o360620_000200, ⟨.owl, 30, 6, true, 0, 0o200⟩, by decide +kernel, by simp only [Claims.PointerAt]; decide +kernel,
    rfl, by decide, ?_⟩
  rintro a rfl
  exact ⟨rfl, 0o000020_000200, by decide +kernel, by decide⟩

/-- The four forms of EffectiveAddressFollowsIndirection: direct, indexed, indirect and unwritten, indirect and written. -/
theorem witness_EffectiveAddressFollowsIndirection :
    (∃ a : AddrSpec, a.i = false ∧ a.x = 0) ∧ (∃ a : AddrSpec, a.i = false ∧ a.x ≠ 0) ∧
    (∃ (s : State) (a : AddrSpec), a.i = true ∧ s.readWord (loc (BitVec.ofNat 18 (a.y.toNat + 0))) = none) ∧
    (∃ (s : State) (a : AddrSpec) (w : Word), a.i = true ∧
      s.readWord (loc (BitVec.ofNat 18 (a.y.toNat + 0))) = some w) :=
  ⟨⟨direct 0, by decide⟩, ⟨⟨false, 15, 0⟩, by decide⟩, ⟨State.reset, ⟨true, 0, 0o777777⟩, by decide +kernel⟩,
   ⟨State.reset, ⟨true, 0, 0o17⟩, 0, by decide +kernel⟩⟩

/-- Addresses 17 and 20 octal, on the two sides of the last accumulator, and two accumulators that differ. -/
theorem witness_ReadSeesTheLatestWrite :
    (State.reset.readWord 0o17 = some 0 ∧ State.reset.readWord 0o20 = none) ∧ (0o20 : MemAddr) ≠ 0o17 ∧
      (15 : AcNum) ≠ 0 := by decide +kernel

theorem witness_StepKeepsMemoryCanonical : ∃ s t : State, s.wf = true ∧ step s = .next t :=
  ⟨usual std 0o272240_001000, (answers_next (o := step (usual std 0o272240_001000)) (by decide +kernel)).choose,
   by decide +kernel, (answers_next (o := step (usual std 0o272240_001000)) (by decide +kernel)).choose_spec⟩

theorem witness_StepKeepsTheParameters : ∃ s t : State, step s = .next t :=
  ⟨_, witness_StepKeepsMemoryCanonical.choose_spec.choose, witness_StepKeepsMemoryCanonical.choose_spec.choose_spec.2⟩

theorem witness_OverflowAndTrap1ArePaired :
    ∃ s t : State, s.cfg.fidelity = .clean ∧ s.flags.overflow = s.flags.trap1 ∧ step s = .next t :=
  ⟨usual std 0o272240_001000, (answers_next (o := step (usual std 0o272240_001000)) (by decide +kernel)).choose, rfl,
   by decide +kernel, (answers_next (o := step (usual std 0o272240_001000)) (by decide +kernel)).choose_spec⟩

/-- ADDM answers, and neither AC 5, nor the word at 17, nor the one at 1001 is stored to. -/
theorem witness_FrameOfEveryInstruction :
    ∃ (i : Instr) (s t : State), exec i s = .next t ∧ (5 : AcNum) ∉ Claims.acDests i s ∧
      (5 : AcNum).setWidth 30 ∉ Claims.memDests i s ∧ (0o17 : MemAddr) ∉ Claims.memDests i s ∧
      (0o1001 : MemAddr) ∉ Claims.memDests i s ∧ (0o1000 : MemAddr) ∈ Claims.memDests i s :=
  ⟨.addm 5 (direct 0o1000), usual std 0,
   (answers_next (o := exec (.addm 5 (direct 0o1000)) (usual std 0)) (by decide +kernel)).choose,
   (answers_next (o := exec (.addm 5 (direct 0o1000)) (usual std 0)) (by decide +kernel)).choose_spec, by decide +kernel⟩

theorem witness_FlagsOfEveryInstruction :
    ∃ (i : Instr) (s t : State), s.cfg.fidelity = .clean ∧ exec i s = .next t :=
  ⟨.addm 5 (direct 0o1000), usual std 0,
   (answers_next (o := exec (.addm 5 (direct 0o1000)) (usual std 0)) (by decide +kernel)).choose, rfl,
   (answers_next (o := exec (.addm 5 (direct 0o1000)) (usual std 0)) (by decide +kernel)).choose_spec⟩

/-- Every row of the jumps and of the skips answers, and so does an instruction that is neither. -/
theorem witness_NextPcOfEveryInstruction :
    (Claims.aojRows ++ Claims.sojRows ++ Claims.aosRows ++ Claims.sosRows).all
      (fun row => answers (exec (row.1 5 (direct 0o1000)) (usual std 0))) = true ∧
    (∃ s t, exec (.addm 5 (direct 0o1000)) s = .next t) :=
  ⟨by decide +kernel,
   ⟨usual std 0, answers_next (o := exec (.addm 5 (direct 0o1000)) (usual std 0)) (by decide +kernel)⟩⟩

theorem witness_DecodeOfEncode : ∃ i : Instr, i.wf = true := ⟨.adjbp 15 far, by decide⟩

theorem witness_EncodeOfDecode : ∃ (ws rest : List Word) (i : Instr), decode ws = .ok (i, rest) :=
  ⟨[0o270240_001000, 1], [1], .add 5 (direct 0o1000), by decide⟩

/-! ### Division: fails and does not fail, with the quotient and remainder that then exist -/

/-- A zero divisor; MAXNEG by 1 and by -1 under Strict; -7 by 2 otherwise. -/
theorem witness_IdivStoresQuotientAndRemainder :
    (∃ s e b, effAddr s (direct 0o1000) = .ok e ∧ Claims.operandIs .basic Claims.zeroLeft s e b ∧ b.toInt = 0) ∧
    (∃ s e b, effAddr s (direct 0o1000) = .ok e ∧ Claims.operandIs .basic Claims.zeroLeft s e b ∧
      s.cfg.idivMaxneg = .strict ∧ (s.ac 5).toInt = -2 ^ 35 ∧ b.toInt = 1) ∧
    (∃ s e b, effAddr s (direct 0o1000) = .ok e ∧ Claims.operandIs .basic Claims.zeroLeft s e b ∧
      s.cfg.idivMaxneg = .strict ∧ (s.ac 5).toInt = -2 ^ 35 ∧ b.toInt = -1) ∧
    (∃ s e b q r, effAddr s (direct 0o1000) = .ok e ∧ Claims.operandIs .basic Claims.zeroLeft s e b ∧
      (s.ac 5).toInt = -7 ∧ b.toInt = 2 ∧ Claims.IsQuotient (-7) 2 q r) := by
  refine ⟨⟨start std [(5, 5)] [(0o1000, 0)], 0o1000, 0, ?_⟩, ⟨start std [(5, 0o400000_000000)] [(0o1000, 1)], 0o1000, 1, ?_⟩,
    ⟨start std [(5, 0o400000_000000)] [(0o1000, 0o777777_777777)], 0o1000, 0o777777_777777, ?_⟩,
    ⟨start std [(5, 0o777777_777771)] [(0o1000, 2)], 0o1000, 2, -3, -1, ?_⟩⟩ <;>
  · simp only [Claims.operandIs, Claims.IsQuotient]
    decide +kernel

/-- A zero divisor; 2^35 by 1, the least dividend that fails; 8 by 3 otherwise. -/
theorem witness_DivStoresQuotientAndRemainder :
    (∃ s e b, effAddr s (direct 0o1000) = .ok e ∧ Claims.operandIs .basic Claims.zeroLeft s e b ∧ b.toInt = 0) ∧
    (∃ s e b, effAddr s (direct 0o1000) = .ok e ∧ Claims.operandIs .basic Claims.zeroLeft s e b ∧
      |Claims.value71 (Claims.acs2 s 5)| = |b.toInt| * 2 ^ 35) ∧
    (∃ s e b q r, effAddr s (direct 0o1000) = .ok e ∧ Claims.operandIs .basic Claims.zeroLeft s e b ∧
      ¬ (b.toInt = 0 ∨ |Claims.value71 (Claims.acs2 s 5)| ≥ |b.toInt| * 2 ^ 35) ∧
      Claims.IsQuotient (Claims.value71 (Claims.acs2 s 5)) b.toInt q r) := by
  refine ⟨⟨start std [] [(0o1000, 0)], 0o1000, 0, ?_⟩, ⟨start std [(5, 1)] [(0o1000, 1)], 0o1000, 1, ?_⟩,
    ⟨start std [(6, 8)] [(0o1000, 3)], 0o1000, 3, 2, 2, ?_⟩⟩ <;>
  · simp only [Claims.operandIs, Claims.IsQuotient]
    decide +kernel

/-- A zero divisor; 2^70 by 1, the least dividend that fails; 7 by 2 otherwise. -/
theorem witness_DdivStoresQuotientAndRemainder :
    (∃ s e w, effAddr s (direct 0o1000) = .ok e ∧ Claims.pairAt s e w ∧ Claims.value71 w = 0) ∧
    (∃ s e w, effAddr s (direct 0o1000) = .ok e ∧ Claims.pairAt s e w ∧
      |Claims.value141 s 5| = |Claims.value71 w| * 2 ^ 70) ∧
    (∃ s e w q r, effAddr s (direct 0o1000) = .ok e ∧ Claims.pairAt s e w ∧
      ¬ (Claims.value71 w = 0 ∨ |Claims.value141 s 5| ≥ |Claims.value71 w| * 2 ^ 70) ∧
      Claims.IsQuotient (Claims.value141 s 5) (Claims.value71 w) q r) := by
  refine ⟨⟨start std [] [(0o1000, 0), (0o1001, 0)], 0o1000, (0, 0), ?_⟩,
    ⟨start std [(6, 1)] [(0o1000, 0), (0o1001, 1)], 0o1000, (0, 1), ?_⟩,
    ⟨start std [(8, 7)] [(0o1000, 0), (0o1001, 2)], 0o1000, (0, 2), 3, 1, ?_⟩⟩ <;>
  · simp only [Claims.pairAt, Claims.IsQuotient]
    decide +kernel

/-! ### Shifts: E names a count below 0, 0, above 0, and at both ends -/


theorem witness_AshShiftsTheMagnitude :
    [(0o400000 : Half), 0o777777, 0, 1, 0o377].map Claims.shiftCount = [-256, -1, 0, 1, 255] ∧
    [(0o400000 : Half), 0o777777, 0, 1, 0o377].all (fun e => decide (effAddr State.reset (direct e) = .ok e)) = true := by
  decide +kernel

theorem witness_AshcShiftsTheDoubleMagnitude :
    [(0o400000 : Half), 0o777777, 0, 1, 0o377].map Claims.shiftCount = [-256, -1, 0, 1, 255] ∧
    [(0o400000 : Half), 0o777777, 0, 1, 0o377].all (fun e => decide (effAddr State.reset (direct e) = .ok e)) = true := by
  decide +kernel

theorem witness_RotatesTurnTheBits :
    [(0o400000 : Half), 0o777777, 0, 1, 0o377].map Claims.shiftCount = [-256, -1, 0, 1, 255] ∧
    [(0o400000 : Half), 0o777777, 0, 1, 0o377].all (fun e => decide (effAddr State.reset (direct e) = .ok e)) = true := by
  decide +kernel

theorem witness_LogicalShiftsMoveTheBits :
    [(0o400000 : Half), 0o777777, 0, 1, 0o377].map Claims.shiftCount = [-256, -1, 0, 1, 255] ∧
    [(0o400000 : Half), 0o777777, 0, 1, 0o377].all (fun e => decide (effAddr State.reset (direct e) = .ok e)) = true := by
  decide +kernel

/-! ### Floating point -/

/-- The least and the greatest normalized fraction and exponent of each sign, in each format. -/
theorem witness_PackedResultsUnpack : ∀ φ ∈ [Fmt.f, Fmt.d, Fmt.g], ∀ e ∈ [(0 : Int), φ.emax],
    0 ≤ e ∧ e ≤ φ.emax ∧ ((2 : Int) ^ (φ.n - 1) ≤ 2 ^ (φ.n - 1) ∧ (2 : Int) ^ (φ.n - 1) < 2 ^ φ.n) ∧
      (-2 ^ φ.n < (1 - 2 ^ φ.n : Int) ∧ (1 - 2 ^ φ.n : Int) ≤ -2 ^ (φ.n - 1)) := by decide +kernel

/-- -1.0 in AC 5 and 3.0 at 1000, under the parameters. -/
def negative (cfg : Params) : State := start cfg [(5, 0o576400_000000)] [(0o1000, 0o202600_000000), (0o1001, 0)]

theorem witness_FloatMultiplyIsExact :
    (∃ s e b, effAddr s (direct 0o1000) = .ok e ∧ Claims.operandIs .basic Claims.zeroRight s e b ∧
      s.cfg.fidelity = .hardware ∧ Claims.valueF (s.ac 5) * Claims.valueF b < 0) ∧
    (∃ s e b, effAddr s (direct 0o1000) = .ok e ∧ Claims.operandIs .basic Claims.zeroRight s e b ∧
      ¬ (s.cfg.fidelity = .hardware ∧ Claims.valueF (s.ac 5) * Claims.valueF b < 0)) := by
  refine ⟨⟨negative hardware, 0o1000, 0o202600_000000, ?_⟩, ⟨negative std, 0o1000, 0o202600_000000, ?_⟩⟩ <;>
  · simp only [Claims.operandIs]
    decide +kernel

/-- A zero divisor; 1.0 by an unnormalized 1/4, the boundary of the test; -1.0 by 3.0 in the quirk band; -1.0 by 3.0. -/
theorem witness_FloatDivideIsExact :
    (∃ s e b, effAddr s (direct 0o1000) = .ok e ∧ Claims.operandIs .basic Claims.zeroRight s e b ∧
      Claims.FloatNoDivide .f (s.ac 5, 0) (b, 0) ∧ (unpack .f (b, 0)).2 = 0) ∧
    (∃ s e b, effAddr s (direct 0o1000) = .ok e ∧ Claims.operandIs .basic Claims.zeroRight s e b ∧
      Claims.FloatNoDivide .f (s.ac 5, 0) (b, 0) ∧ 2 * |(unpack .f (b, 0)).2| = |(unpack .f (s.ac 5, 0)).2| / 2) ∧
    (∃ s e b, effAddr s (direct 0o1000) = .ok e ∧ Claims.operandIs .basic Claims.zeroRight s e b ∧
      ¬ Claims.FloatNoDivide .f (s.ac 5, 0) (b, 0) ∧ s.cfg.fidelity = .hardware ∧
      Claims.valueF (s.ac 5) / Claims.valueF b < 0) ∧
    (∃ s e b, effAddr s (direct 0o1000) = .ok e ∧ Claims.operandIs .basic Claims.zeroRight s e b ∧
      ¬ Claims.FloatNoDivide .f (s.ac 5, 0) (b, 0) ∧
      ¬ (s.cfg.fidelity = .hardware ∧ Claims.valueF (s.ac 5) / Claims.valueF b < 0)) := by
  refine ⟨⟨start std [(5, 0o201400_000000)] [(0o1000, 0)], 0o1000, 0, ?_⟩,
    ⟨start std [(5, 0o201400_000000)] [(0o1000, 0o201100_000000)], 0o1000, 0o201100_000000, ?_⟩,
    ⟨negative hardware, 0o1000, 0o202600_000000, ?_⟩, ⟨negative std, 0o1000, 0o202600_000000, ?_⟩⟩ <;>
  · simp only [Claims.operandIs, Claims.FloatNoDivide]
    decide +kernel

/-- 1.0 and -1.0, whose sum is 0; 1.5 and 1.5, whose sum leaves the fraction's range; 2.0 and 0.5. -/
theorem witness_UfaAddsWithoutNormalizing :
    (∃ s : State, effAddr s (direct 0o1000) = .ok 0o1000 ∧ s.readWord (loc 0o1000) = some 0o576400_000000 ∧
      s.ac 5 = 0o201400_000000) ∧
    (∃ s : State, effAddr s (direct 0o1000) = .ok 0o1000 ∧ s.readWord (loc 0o1000) = some 0o201600_000000 ∧
      s.ac 5 = 0o201600_000000) ∧
    (∃ s : State, effAddr s (direct 0o1000) = .ok 0o1000 ∧ s.readWord (loc 0o1000) = some 0o200400_000000 ∧
      s.ac 5 = 0o202400_000000) :=
  ⟨⟨start std [(5, 0o201400_000000)] [(0o1000, 0o576400_000000)], by decide +kernel⟩,
   ⟨start std [(5, 0o201600_000000)] [(0o1000, 0o201600_000000)], by decide +kernel⟩,
   ⟨start std [(5, 0o202400_000000)] [(0o1000, 0o200400_000000)], by decide +kernel⟩⟩

/-- Exponents 244 and 243 octal, on the two sides of the test. -/
theorem witness_FixConvertsOrStoresNothing :
    (∃ s b, effAddr s (direct 0o1000) = .ok 0o1000 ∧ s.readWord (loc 0o1000) = some b ∧ (unpack .f (b, 0)).1 = 0o244) ∧
    (∃ s b, effAddr s (direct 0o1000) = .ok 0o1000 ∧ s.readWord (loc 0o1000) = some b ∧ (unpack .f (b, 0)).1 = 0o243) :=
  ⟨⟨start std [] [(0o1000, 0o244400_000000)], 0o244400_000000, by decide +kernel⟩,
   ⟨start std [] [(0o1000, 0o243777_777777)], 0o243777_777777, by decide +kernel⟩⟩

/-- 2^27 - 1, the greatest integer of the round trip, and FSC's E. -/
theorem witness_FltrAndFscAreExact :
    (∃ s b, effAddr s (direct 0o1000) = .ok 0o1000 ∧ s.readWord (loc 0o1000) = some b ∧ b.toInt = 2 ^ 27 - 1 ∧
      |b.toInt| < 2 ^ 27) ∧
    (∃ s' w, effAddr s' (direct 0o1000) = .ok 0o1000 ∧ s'.readWord (loc 0o1000) = some w) ∧
    effAddr State.reset (direct 3) = .ok 3 :=
  ⟨⟨start std [] [(0o1000, 0o777_777777)], 0o777_777777, by decide +kernel⟩,
   ⟨start std [] [(0o1000, 0o233777_777777)], 0o233777_777777, by decide +kernel⟩, by decide +kernel⟩

/-- A zero divisor; a quotient that is none; the quirk band; the rest. -/
theorem witness_DoubleFloatArithmeticIsExact :
    (∃ s d, effAddr s (direct 0o1000) = .ok 0o1000 ∧ Claims.pairAt s 0o1000 d ∧
      Claims.FloatNoDivide .d (Claims.acs2 s 5) d) ∧
    (∃ s d, effAddr s (direct 0o1000) = .ok 0o1000 ∧ Claims.pairAt s 0o1000 d ∧
      ¬ Claims.FloatNoDivide .d (Claims.acs2 s 5) d ∧ s.cfg.fidelity = .hardware ∧
      Claims.value .d (Claims.acs2 s 5) / Claims.value .d d < 0) ∧
    (∃ s d, effAddr s (direct 0o1000) = .ok 0o1000 ∧ Claims.pairAt s 0o1000 d ∧
      ¬ Claims.FloatNoDivide .d (Claims.acs2 s 5) d ∧
      ¬ (s.cfg.fidelity = .hardware ∧ Claims.value .d (Claims.acs2 s 5) / Claims.value .d d < 0)) := by
  refine ⟨⟨start std [(5, 0o201400_000000)] [(0o1000, 0), (0o1001, 0)], (0, 0), ?_⟩,
    ⟨negative hardware, (0o202600_000000, 0), ?_⟩, ⟨negative std, (0o202600_000000, 0), ?_⟩⟩ <;>
  · simp only [Claims.pairAt, Claims.FloatNoDivide]
    decide +kernel

theorem witness_GFloatArithmeticIsExact :
    (∃ s d, s.cfg.hasGfloat = true ∧ effAddr s (direct 0o1000) = .ok 0o1000 ∧ Claims.pairAt s 0o1000 d ∧
      Claims.FloatNoDivide .g (Claims.acs2 s 5) d) ∧
    (∃ s d, s.cfg.hasGfloat = true ∧ effAddr s (direct 0o1000) = .ok 0o1000 ∧ Claims.pairAt s 0o1000 d ∧
      ¬ Claims.FloatNoDivide .g (Claims.acs2 s 5) d) := by
  refine ⟨⟨start std [(5, 0o200140_000000)] [(0o1000, 0), (0o1001, 0)], (0, 0), ?_⟩,
    ⟨start std [(5, 0o200140_000000)] [(0o1000, 0o200240_000000), (0o1001, 0)], (0o200240_000000, 0), ?_⟩⟩ <;>
  · simp only [Claims.pairAt, Claims.FloatNoDivide]
    decide +kernel

/-- Exponents 2043 and 2044, 2106 and 2107 octal, on the two sides of each test. -/
theorem witness_GFixConvertsOrStoresNothing : ∀ row ∈
    [((0o204340_000000 : Word), (0o2043 : Int)), (0o204440_000000, 0o2044), (0o210640_000000, 0o2106),
     (0o210740_000000, 0o2107)],
    (start std [] [(0o1000, row.1), (0o1001, 0)]).cfg.hasGfloat = true ∧
    effAddr (start std [] [(0o1000, row.1), (0o1001, 0)]) (direct 0o1000) = .ok 0o1000 ∧
    Claims.pairAt (start std [] [(0o1000, row.1), (0o1001, 0)]) 0o1000 (row.1, 0) ∧
    (unpack .g (row.1, 0)).1 = row.2 := by
  simp only [Claims.pairAt]
  decide +kernel

theorem witness_GConversionsAreExact : ∃ s b d, s.cfg.hasGfloat = true ∧ effAddr s (direct 0o1000) = .ok 0o1000 ∧
    s.readWord (loc 0o1000) = some b ∧ Claims.pairAt s 0o1000 d :=
  ⟨usual std 0, 0o202400_000000, (0o202400_000000, 0), by simp only [Claims.pairAt]; decide +kernel⟩

/-- An all-ones fraction field with count 1 under Hardware, and the same with count 0. -/
theorem witness_GfscScalesOrIsAQuirk :
    (∃ s e, s.cfg.hasGfloat = true ∧ effAddr s (direct 1) = .ok e ∧ s.cfg.fidelity = .hardware ∧
      (unpack .g (Claims.acs2 s 5)).2 % 2 ^ 59 = 2 ^ 59 - 1 ∧ Claims.shiftCount e > 0) ∧
    (∃ s e, s.cfg.hasGfloat = true ∧ effAddr s (direct 0) = .ok e ∧
      ¬ (s.cfg.fidelity = .hardware ∧ (unpack .g (Claims.acs2 s 5)).2 % 2 ^ 59 = 2 ^ 59 - 1 ∧
        Claims.shiftCount e > 0)) :=
  ⟨⟨start hardware [(5, 0o200177_777777), (6, 0o377777_777777)] [], 1, by decide +kernel⟩,
   ⟨start hardware [(5, 0o200177_777777), (6, 0o377777_777777)] [], 0, by decide +kernel⟩⟩

/-! ### Byte pointers -/

/-- The forms: EXTENDED false; P = 36 and 37 with EXTENDED; code 77; a two-word pointer that faults, IFIW, EFIW, malformed. -/
theorem witness_CanonicalFormOfAPointer :
    std.extended = false ∧ extended.extended = true ∧
    (Claims.field 0o440600_000100 30 6 = 36 ∧ (0o440600_000100 : Word).getLsbD 23 = false) ∧
    (Claims.field 0o450000_000100 30 6, 36, 6) ∈ Claims.owgTable ∧ Claims.field 0o770000_000100 30 6 = 0o77 ∧
    (Claims.field 0o440640_000000 30 6 ≤ 36 ∧ (0o440640_000000 : Word).getLsbD 23 = true) ∧
    [0o400000_000000, 0o377777_777777, 0o600000_000000].map (fun w => Claims.field w 34 2) = [2, 1, 3] ∧
    (∀ m1 : Except MemInfo Word, m1 = .error (.unwritten 0) ∨ m1 = .ok 0o400000_000000 ∨ m1 = .ok 0o377777_777777 ∨
      m1 = .ok 0o600000_000000 → (canon extended 0o440640_000000 m1).toOption.isSome = decide (m1.toOption.isSome)) := by
  refine ⟨rfl, rfl, by decide, by decide, by decide, by decide, by decide, ?_⟩
  rintro m1 (rfl | rfl | rfl | rfl) <;> decide

/-- A second word that is unwritten; a pointer that traps; a byte whose word is unwritten, for each way to reach it; a byte
address that faults; a byte whose write fails, for both ways to deposit it. -/
theorem witness_MalformedPointersTrapFirst :
    (∃ s w0 info, effAddr s (direct 0o1000) = .ok 0o1000 ∧ s.readWord (loc 0o1000) = some w0 ∧
      canon s.cfg w0 (secondWord s 0o1000) = .error info ∧ s.cfg.extended = true ∧ Claims.field w0 30 6 ≤ 36 ∧
      w0.getLsbD 23 = true ∧ s.readWord (Claims.succAddr s.cfg 0o1000) = none) ∧
    (∃ s w0 bp, effAddr s (direct 0o1000) = .ok 0o1000 ∧ s.readWord (loc 0o1000) = some w0 ∧
      canon s.cfg w0 (secondWord s 0o1000) = .ok bp ∧ bpTraps s.cfg.bpTrap bp = true) ∧
    (∃ s w0 bp, effAddr s (direct 0o1000) = .ok 0o1000 ∧ s.readWord (loc 0o1000) = some w0 ∧
      canon s.cfg w0 (secondWord s 0o1000) = .ok bp ∧ bpTraps s.cfg.bpTrap bp = false ∧
      ∀ row ∈ Claims.reachingInstrs 5 (direct 0o1000) bp, ∃ x, byteAddr s row.2 = .ok x ∧ s.readWord x = none) ∧
    (∃ s w0 bp, effAddr s (direct 0o1000) = .ok 0o1000 ∧ s.readWord (loc 0o1000) = some w0 ∧
      canon s.cfg w0 (secondWord s 0o1000) = .ok bp ∧ bpTraps s.cfg.bpTrap bp = false ∧
      ∃ info, byteAddr s bp = .error (.fault info)) ∧
    (∃ s w0 bp, effAddr s (direct 0o1000) = .ok 0o1000 ∧ Claims.PointerAt s 0o1000 w0 bp ∧
      ∀ row ∈ Claims.depositInstrs 5 (direct 0o1000) bp, ∃ x w, byteAddr s row.2 = .ok x ∧ s.readWord x = some w ∧
        s.writeFails x = true) := by
  refine ⟨⟨start extended [] [(0o1000, 0o440640_000000)], 0o440640_000000, .unwritten 0o1001, by decide +kernel⟩,
    ⟨start std [] [(0o1000, 0o360000_000100)], 0o360000_000100, ⟨.owl, 30, 0, false, 0, 0o100⟩, by decide +kernel⟩,
    ⟨start std [] [(0o1000, 0o360600_000200)], 0o360600_000200, ⟨.owl, 30, 6, false, 0, 0o200⟩, by decide +kernel,
      by decide +kernel, by decide +kernel, by decide +kernel, ?_⟩,
    ⟨start std [] [(0o1000, 0o360620_000200)], 0o360620_000200, ⟨.owl, 30, 6, true, 0, 0o200⟩, by decide +kernel,
      by decide +kernel, by decide +kernel, by decide +kernel, ⟨.unwritten 0o200, by decide +kernel⟩⟩,
    ⟨writeProtected 0o200, 0o360600_000200, ⟨.owl, 30, 6, false, 0, 0o200⟩, by decide +kernel,
      by simp only [Claims.PointerAt]; decide +kernel, ?_⟩⟩
  · intro row hrow
    refine ⟨0o200, ?_⟩
    revert row
    decide +kernel
  · intro row hrow
    refine ⟨0o200, 0o000022_000000, ?_⟩
    revert row
    decide +kernel

/-- R711: an indirect word that names itself never answers, however much is read. -/
theorem eaLoop_self {s : State} {a : AddrSpec} {w : Word} (hi : a.i = true) (hw : s.readWord (loc (indexed s a)) = some w)
    (ha : addrOf w = a) : ∀ n, eaLoop s n a = .error .cycle
  | 0 => rfl
  | n + 1 => by rw [eaLoop, if_pos hi, hw]; simp only [ha]; exact eaLoop_self hi hw ha n

/-- An address that never answers, for each way to reach the byte. -/
theorem witness_MalformedPointersTrapFirst_cycle :
    ∃ s w0 bp, effAddr s (direct 0o1000) = .ok 0o1000 ∧ s.readWord (loc 0o1000) = some w0 ∧
      canon s.cfg w0 (secondWord s 0o1000) = .ok bp ∧ bpTraps s.cfg.bpTrap bp = false ∧
      ∀ row ∈ Claims.reachingInstrs 5 (direct 0o1000) bp, byteAddr s row.2 = .error .cycle := by
  refine ⟨start std [] [(0o1000, 0o360620_000200), (0o200, 0o000020_000200)], 0o360620_000200,
    ⟨.owl, 30, 6, true, 0, 0o200⟩, by decide +kernel, by decide +kernel, by decide +kernel, by decide +kernel, ?_⟩
  have hc : effAddr (start std [] [(0o1000, 0o360620_000200), (0o200, 0o000020_000200)]) ⟨true, 0, 0o200⟩ = .error .cycle :=
    eaLoop_self rfl (w := 0o000020_000200) (by decide +kernel) (by decide) _
  have hb : ∀ p, byteAddr (start std [] [(0o1000, 0o360620_000200), (0o200, 0o000020_000200)])
      ⟨.owl, p, 6, true, 0, 0o200⟩ = .error .cycle := fun p => by
    simp only [byteAddr, resolveLocal, show BitVec.setWidth 18 (0o200 : MemAddr) = 0o200 from rfl, hc, Except.map]
  have hinc : Claims.incremented ⟨.owl, 30, 6, true, 0, 0o200⟩ = ⟨.owl, 24, 6, true, 0, 0o200⟩ := by decide
  intro row hrow
  simp only [Claims.reachingInstrs, hinc, List.mem_cons, List.not_mem_nil, or_false] at hrow
  rcases hrow with rfl | rfl | rfl | rfl <;> exact hb _

/-- A pointer of each form that is used, with its words: one-word local, one-word global, two-word local, two-word global. -/
def pointerStates : List (State × Word × Word × Bp) :=
  [(start std [] [(0o1000, 0o440700_000200), (0o1001, 0), (0o200, 0), (0o201, 0)], 0o440700_000200, 0,
      ⟨.owl, 36, 7, false, 0, 0o200⟩),
   (start extended [] [(0o1000, 0o610000_000200), (0o1001, 0), (0o200, 0), (0o201, 0)], 0o610000_000200, 0,
      ⟨.owg, 36, 7, false, 0, 0o200⟩),
   (start extended [] [(0o1000, 0o000740_000000), (0o1001, 0o400000_000200), (0o200, 0), (0o201, 0)], 0o000740_000000,
      0o400000_000200, ⟨.twl, 0, 7, false, 0, 0o200⟩),
   (start extended [] [(0o1000, 0o000740_000000), (0o1001, 0o000000_000200), (0o200, 0), (0o201, 0)], 0o000740_000000,
      0o000000_000200, ⟨.twg, 0, 7, false, 0, 0o200⟩)]

/-- The hypotheses that IBP, ILDB, IDPB, LDB, DPB and ADJBP share, met by a pointer of each form. -/
theorem witness_pointers : ∀ r ∈ pointerStates, effAddr r.1 (direct 0o1000) = .ok 0o1000 ∧
    Claims.PointerAt r.1 0o1000 r.2.1 r.2.2.2 ∧ r.1.readWord (Claims.succAddr r.1.cfg 0o1000) = some r.2.2.1 ∧
    (∃ x w, byteAddr r.1 r.2.2.2 = .ok x ∧ r.1.readWord x = some w ∧ r.1.writeFails x = false) ∧
    (∃ x w, byteAddr r.1 (Claims.incremented r.2.2.2) = .ok x ∧ r.1.readWord x = some w ∧
      r.1.writeFails x = false) := by
  intro r hr
  simp only [pointerStates, List.mem_cons, List.not_mem_nil, or_false] at hr
  rcases hr with rfl | rfl | rfl | rfl
  · exact ⟨by decide +kernel, by simp only [Claims.PointerAt]; decide +kernel, by decide +kernel,
      ⟨0o200, 0, by decide +kernel⟩, ⟨0o200, 0, by decide +kernel⟩⟩
  · exact ⟨by decide +kernel, by simp only [Claims.PointerAt]; decide +kernel, by decide +kernel,
      ⟨0o200, 0, by decide +kernel⟩, ⟨0o200, 0, by decide +kernel⟩⟩
  · exact ⟨by decide +kernel, by simp only [Claims.PointerAt]; decide +kernel, by decide +kernel,
      ⟨0o200, 0, by decide +kernel⟩, ⟨0o201, 0, by decide +kernel⟩⟩
  · exact ⟨by decide +kernel, by simp only [Claims.PointerAt]; decide +kernel, by decide +kernel,
      ⟨0o200, 0, by decide +kernel⟩, ⟨0o201, 0, by decide +kernel⟩⟩

theorem secondIs_of_read {s : State} {e : Half} {w1 : Word} (h : s.readWord (Claims.succAddr s.cfg e) = some w1) :
    Claims.secondIs s e w1 := fun _ hw => Option.some.inj (h.symm.trans hw)

theorem witness_LdbAndDpbMoveTheByte : ∀ r ∈ pointerStates, ∃ x w, effAddr r.1 (direct 0o1000) = .ok 0o1000 ∧
    Claims.PointerAt r.1 0o1000 r.2.1 r.2.2.2 ∧ byteAddr r.1 r.2.2.2 = .ok x ∧ r.1.readWord x = some w ∧
    r.1.writeFails x = false := fun r hr =>
  have ⟨he, hp, _, ⟨x, w, hx, hw⟩, _⟩ := witness_pointers r hr
  ⟨x, w, he, hp, hx, hw⟩

theorem witness_IbpAdvancesThePointer : ∀ r ∈ pointerStates, effAddr r.1 (direct 0o1000) = .ok 0o1000 ∧
    Claims.PointerAt r.1 0o1000 r.2.1 r.2.2.2 ∧ Claims.secondIs r.1 0o1000 r.2.2.1 := fun r hr =>
  have ⟨he, hp, h1, _⟩ := witness_pointers r hr
  ⟨he, hp, secondIs_of_read h1⟩

theorem witness_IldbAndIdpbAdvanceThenMove : ∀ r ∈ pointerStates, ∃ x w, effAddr r.1 (direct 0o1000) = .ok 0o1000 ∧
    Claims.PointerAt r.1 0o1000 r.2.1 r.2.2.2 ∧ Claims.secondIs r.1 0o1000 r.2.2.1 ∧
    byteAddr r.1 (Claims.incremented r.2.2.2) = .ok x ∧ r.1.readWord x = some w ∧ r.1.writeFails x = false := fun r hr =>
  have ⟨he, hp, h1, _, ⟨x, w, hx, hw⟩⟩ := witness_pointers r hr
  ⟨x, w, he, hp, secondIs_of_read h1, hx, hw⟩

/-- A pointer of each form, and the four cases of the byte size: S = 0; bpw = 0 (P 0, S 38); bpw = 5 with the least and the
greatest r; bpw < 0 (P 37, S 38). -/
theorem witness_AdjbpAdjustsThePointer :
    (∀ r ∈ pointerStates, effAddr r.1 (direct 0o1000) = .ok 0o1000 ∧ Claims.PointerAt r.1 0o1000 r.2.1 r.2.2.2 ∧
      Claims.secondIs r.1 0o1000 r.2.2.1 ∧ r.2.2.2.s ≠ 0) ∧
    (∀ w ∈ [(0o000000_001000 : Word), 0o004600_001000, 0o440700_001000, 0o454600_001000],
      ∃ bp, Claims.PointerAt (start std [] [(0o1000, w), (0o1001, 0)]) 0o1000 w bp) ∧
    ((36 - (0 : Int)) / (38 : Nat) + ((0 : Nat) / 38 : Nat) = 0) ∧ ((36 - (37 : Int)) / (38 : Nat) + ((37 : Nat) / 38 : Nat) = -1) ∧
    ((36 - (36 : Int)) / (7 : Nat) + ((36 : Nat) / 7 : Nat) = 5) ∧ (1 : Int) + 0 = 0 * 5 + 1 ∧ (5 : Int) + 0 = 0 * 5 + 5 := by
  refine ⟨fun r hr => ?_, ?_, by decide, by decide, by decide, by decide, by decide⟩
  · obtain ⟨he, hp, h1, _⟩ := witness_pointers r hr
    refine ⟨he, hp, secondIs_of_read h1, ?_⟩
    simp only [pointerStates, List.mem_cons, List.not_mem_nil, or_false] at hr
    rcases hr with rfl | rfl | rfl | rfl <;> decide
  · intro w hw
    simp only [List.mem_cons, List.not_mem_nil, or_false] at hw
    rcases hw with rfl | rfl | rfl | rfl
    · exact ⟨⟨.owl, 0, 0, false, 0, 0o1000⟩, by simp only [Claims.PointerAt]; decide +kernel⟩
    · exact ⟨⟨.owl, 0, 38, false, 0, 0o1000⟩, by simp only [Claims.PointerAt]; decide +kernel⟩
    · exact ⟨⟨.owl, 36, 7, false, 0, 0o1000⟩, by simp only [Claims.PointerAt]; decide +kernel⟩
    · exact ⟨⟨.owl, 37, 38, false, 0, 0o1000⟩, by simp only [Claims.PointerAt]; decide +kernel⟩

/-- The clauses: local with an address that answers, with one that does not; one-word global; two-word global with and
without an index register, whose sum wraps at 2^30. -/
theorem witness_ByteAddressOfEveryForm :
    (∃ (s : State) (bp : Bp) (e : Half), bp.form = .owl ∧ effAddr s ⟨bp.i, bp.x, bp.y.setWidth 18⟩ = .ok e) ∧
    (∃ (s : State) (bp : Bp) (err : AddrError), bp.form = .twl ∧
      effAddr s ⟨bp.i, bp.x, bp.y.setWidth 18⟩ = .error err) ∧
    (∃ bp : Bp, bp.form = .owg) ∧ (∃ bp : Bp, bp.form = .twg ∧ bp.i = false ∧ bp.x = 0) ∧
    byteAddr (start extended [(3, 2)] []) ⟨.twg, 30, 6, false, 3, 0o7777777777⟩ = .ok 1 :=
  ⟨⟨State.reset, ⟨.owl, 36, 7, false, 0, 0o200⟩, 0o200, by decide +kernel⟩,
   ⟨State.reset, ⟨.twl, 36, 7, true, 0, 0o200⟩, .fault (.unwritten 0o200), by decide +kernel⟩,
   ⟨⟨.owg, 36, 7, false, 0, 0o200⟩, rfl⟩, ⟨⟨.twg, 36, 7, false, 0, 0o200⟩, rfl, rfl, rfl⟩, by decide +kernel⟩

end Sys2Proof.Tests
end

/-! SUPPORT. The flag register under the operations of the machine (10_state.md R61): no operation reads it, and every store
leaves it as it is, so an operation runs alike from every value of the register and adds one flag delta to it. -/

namespace Sys2Proof.Machine

/-- The state with its flag register at `f`. -/
def State.withFlags (s : State) (f : Flags) : State := { s with flags := f }

/-! ## Reads under another flag register -/

@[simp] theorem State.withFlags_pc (s : State) (f : Flags) : (s.withFlags f).pc = s.pc := rfl
@[simp] theorem State.withFlags_run (s : State) (f : Flags) : (s.withFlags f).run = s.run := rfl
@[simp] theorem State.withFlags_cfg (s : State) (f : Flags) : (s.withFlags f).cfg = s.cfg := rfl
@[simp] theorem State.withFlags_ac (s : State) (f : Flags) (n : AcNum) : (s.withFlags f).ac n = s.ac n := rfl
@[simp] theorem State.withFlags_readWord (s : State) (f : Flags) (a : MemAddr) :
    (s.withFlags f).readWord a = s.readWord a := rfl
@[simp] theorem State.withFlags_writeFails (s : State) (f : Flags) (a : MemAddr) :
    (s.withFlags f).writeFails a = s.writeFails a := rfl
@[simp] theorem indexed_withFlags (s : State) (f : Flags) (a : AddrSpec) : indexed (s.withFlags f) a = indexed s a := rfl
@[simp] theorem acPair_withFlags (s : State) (f : Flags) (ac : AcNum) : acPair (s.withFlags f) ac = acPair s ac := rfl
@[simp] theorem acQuad_withFlags (s : State) (f : Flags) (ac : AcNum) : acQuad (s.withFlags f) ac = acQuad s ac := rfl
@[simp] theorem secondWord_withFlags (s : State) (f : Flags) (e : Half) :
    secondWord (s.withFlags f) e = secondWord s e := rfl

theorem eaLoop_withFlags (s : State) (f : Flags) (n : Nat) (a : AddrSpec) :
    eaLoop (s.withFlags f) n a = eaLoop s n a := by
  induction n generalizing a with
  | zero => rfl
  | succ n ih => simp only [eaLoop, State.withFlags_readWord, indexed_withFlags, ih]

@[simp] theorem effAddr_withFlags (s : State) (f : Flags) (a : AddrSpec) : effAddr (s.withFlags f) a = effAddr s a :=
  eaLoop_withFlags s f _ a

@[simp] theorem fetchWords_withFlags (s : State) (f : Flags) : fetchWords (s.withFlags f) = fetchWords s := by
  simp only [fetchWords, wordAt, fetchAddr, State.withFlags_readWord, State.withFlags_pc, effAddr_withFlags]

@[simp] theorem resolveLocal_withFlags (s : State) (f : Flags) (i : Bool) (x : BitVec 4) (y : MemAddr) :
    resolveLocal (s.withFlags f) i x y = resolveLocal s i x y := by
  simp only [resolveLocal, effAddr_withFlags]

theorem globalLoop_withFlags (s : State) (f : Flags) (n : Nat) (i : Bool) (x : BitVec 4) (y : MemAddr) :
    globalLoop (s.withFlags f) n i x y = globalLoop s n i x y := by
  induction n generalizing i x y with
  | zero => rfl
  | succ n ih =>
    simp only [globalLoop, State.withFlags_readWord, State.withFlags_ac, resolveLocal_withFlags, ih]

@[simp] theorem byteAddr_withFlags (s : State) (f : Flags) (bp : Bp) : byteAddr (s.withFlags f) bp = byteAddr s bp := by
  simp only [byteAddr, resolveGlobal, resolveLocal_withFlags, globalLoop_withFlags]

/-! ## Stores under another flag register -/

@[simp] theorem State.report_withFlags (s : State) (f d : Flags) :
    (s.withFlags f).report d = s.withFlags (f.union d) := rfl
@[simp] theorem State.setPc_withFlags (s : State) (f : Flags) (p : Half) :
    (s.withFlags f).setPc p = (s.setPc p).withFlags f := rfl
@[simp] theorem State.setAc_withFlags (s : State) (f : Flags) (n : AcNum) (w : Word) :
    (s.withFlags f).setAc n w = (s.setAc n w).withFlags f := rfl
@[simp] theorem State.writeWord_withFlags (s : State) (f : Flags) (a : MemAddr) (w : Word) :
    (s.withFlags f).writeWord a w = (s.writeWord a w).withFlags f := by
  unfold State.writeWord; split <;> rfl
@[simp] theorem haltRun_withFlags (s : State) (f : Flags) : haltRun (s.withFlags f) = (haltRun s).withFlags f := rfl

/-- A store that neither reads nor writes the flag register. -/
def IgnoresFlags (store : State → State) : Prop := ∀ u f, store (u.withFlags f) = (store u).withFlags f

theorem ignoresFlags_setAc (n : AcNum) (w : Word) : IgnoresFlags (·.setAc n w) := fun _ _ => rfl

theorem ignoresFlags_storePair (ac : AcNum) (r : Word × Word) : IgnoresFlags (storePair ac r) := fun _ _ => rfl

theorem ignoresFlags_storeQuad (ac : AcNum) (r : (Word × Word) × (Word × Word)) : IgnoresFlags (storeQuad ac r) :=
  fun _ _ => rfl

theorem ignoresFlags_storeMemPair (e : Half) (r : Word × Word) : IgnoresFlags (storeMemPair e r) :=
  fun u f => by simp [storeMemPair]

theorem ignoresFlags_storeMode (m : Mode) (ac : AcNum) (e : Half) (r : Word) : IgnoresFlags (storeMode m ac e r) :=
  fun u f => by cases m <;> simp [storeMode]

theorem ignoresFlags_storeModePair (m : Mode) (ac : AcNum) (e : Half) (r : Word × Word) :
    IgnoresFlags (storeModePair m ac e r) :=
  fun u f => by cases m <;> simp [storeModePair, storePair]

theorem ignoresFlags_storeSelf (ac : AcNum) (e : Half) (r : Word) : IgnoresFlags (storeSelf ac e r) :=
  fun u f => by unfold storeSelf; split <;> simp

theorem ignoresFlags_storeMove (m : MoveMode) (ac : AcNum) (e : Half) (r : Word) : IgnoresFlags (storeMove m ac e r) :=
  fun u f => by
    cases m with
    | basic => rfl
    | immediate => rfl
    | memory => exact State.writeWord_withFlags ..
    | self => exact ignoresFlags_storeSelf ac e r u f

theorem ignoresFlags_storeWritten (r : Option (MemAddr × Word)) : IgnoresFlags (storeWritten r) :=
  fun u f => by cases r <;> simp [storeWritten]

theorem ignoresFlags_storePointer (e : Half) (r : Option (Word × Option Word)) : IgnoresFlags (storePointer e r) :=
  fun u f => by
    rcases r with _ | ⟨w0, _ | w1⟩
    · rfl
    · exact State.writeWord_withFlags ..
    · exact ignoresFlags_storeMemPair e (w0, w1) u f

theorem ignoresFlags_storeByteAc (ac : AcNum) (r : Option (Word × Option Word)) : IgnoresFlags (storeByteAc ac r) :=
  fun u f => by rcases r with _ | ⟨w0, _ | w1⟩ <;> rfl

theorem ignoresFlags_storeByte (ac : AcNum) (e : Half) (r : ByteResult) : IgnoresFlags (storeByte ac e r) :=
  fun u f => by
    simp only [storeByte, ignoresFlags_storeWritten r.written u f, ignoresFlags_storePointer e r.ptr _ f,
      ignoresFlags_storeByteAc ac r.ac _ f]

/-! ## Runs from every flag register -/

/-- The flag delta an outcome of the core reports, where it reports one, satisfies `Q`. -/
def CoreOutcome.Reports {α : Type} (Q : Flags → Prop) (o : CoreOutcome α) : Prop :=
  match o with
  | .done _ d => Q d
  | .noDivide d => Q d
  | .noStore d => Q d
  | .bpTrap _ _ _ => True
  | .memFault _ => True
  | .noAnswer => True

/-- R61: of runs `o f` from each flag register `f`, that there is one outcome: a next state and a flag delta that satisfies
`Q`, united with `f`; or one fault; or one refusal. -/
def OnlyAddsFlags (Q : Flags → Prop) (o : Flags → Out) : Prop :=
  (∃ (d : Flags) (t : State), Q d ∧ ∀ f, o f = .next (t.withFlags (f.union d))) ∨
  (∃ r, ∀ f, o f = .fault r) ∨ (∃ r, ∀ f, o f = .refused r)

variable {Q : Flags → Prop} {s : State} {ac : AcNum} {a : AddrSpec} {e : Half}

theorem OnlyAddsFlags.next (t : State) {d : Flags} (hd : Q d) :
    OnlyAddsFlags Q fun f => .next (t.withFlags (f.union d)) := Or.inl ⟨d, t, hd, fun _ => rfl⟩

theorem OnlyAddsFlags.next_same (t : State) (hnone : Q .none) : OnlyAddsFlags Q fun f => .next (t.withFlags f) := by
  simpa only [Flags.union_none] using OnlyAddsFlags.next t hnone

theorem OnlyAddsFlags.fault (r : Fault) : OnlyAddsFlags Q fun _ => .fault r := Or.inr (Or.inl ⟨r, fun _ => rfl⟩)

theorem OnlyAddsFlags.refused (r : Refusal) : OnlyAddsFlags Q fun _ => .refused r := Or.inr (Or.inr ⟨r, fun _ => rfl⟩)

/-- A next state among such runs holds the flags before it and a delta that satisfies `Q`. -/
theorem OnlyAddsFlags.flags_of_next {o : Flags → Out} (h : OnlyAddsFlags Q o) {f : Flags} {t : State}
    (ht : o f = .next t) : ∃ d, Q d ∧ t.flags = f.union d := by
  obtain ⟨d, u, hd, hnext⟩ | ⟨r, hfault⟩ | ⟨r, hrefused⟩ := h
  · rw [hnext, Host.Outcome.next.injEq] at ht
    exact ⟨d, hd, ht ▸ rfl⟩
  · simp [hfault] at ht
  · simp [hrefused] at ht

/-- The end of an operation adds to the flag register what the operation reports. -/
theorem onlyAddsFlags_retireTo {α : Type} {o : CoreOutcome α} {store : α → State → State} {next : α → Half}
    (ho : o.Reports Q) (hstore : ∀ r, IgnoresFlags (store r)) :
    OnlyAddsFlags Q fun f => retireTo (s.withFlags f) o store next := by
  cases o with
  | done r d =>
    simp only [retireTo, State.report_withFlags, hstore r s _, State.setPc_withFlags]
    exact .next _ ho
  | noDivide d => exact .next (s.setPc (s.pc + 1)) ho
  | noStore d => exact .next (s.setPc (s.pc + 1)) ho
  | bpTrap form p sz => exact .fault _
  | memFault info => exact .fault _
  | noAnswer => exact .fault _

theorem onlyAddsFlags_retire {α : Type} {o : CoreOutcome α} {store : α → State → State}
    (ho : o.Reports Q) (hstore : ∀ r, IgnoresFlags (store r)) :
    OnlyAddsFlags Q fun f => retire (s.withFlags f) o store :=
  onlyAddsFlags_retireTo (next := fun _ => s.pc + 1) ho hstore

theorem onlyAddsFlags_withE {k : Flags → Half → Out} (hk : ∀ e, OnlyAddsFlags Q fun f => k f e) :
    OnlyAddsFlags Q fun f => withE (s.withFlags f) a (k f) := by
  simp only [withE, effAddr_withFlags]
  cases effAddr s a with
  | ok e => exact hk e
  | error err => exact .fault _

theorem onlyAddsFlags_withWord {x : MemAddr} {k : Flags → Word → Out} (hk : ∀ w, OnlyAddsFlags Q fun f => k f w) :
    OnlyAddsFlags Q fun f => withWord (s.withFlags f) x (k f) := by
  simp only [withWord, State.withFlags_readWord]
  cases s.readWord x with
  | some w => exact hk w
  | none => exact .fault _

theorem onlyAddsFlags_withPair {k : Flags → Word × Word → Out} (hk : ∀ d, OnlyAddsFlags Q fun f => k f d) :
    OnlyAddsFlags Q fun f => withPair (s.withFlags f) e (k f) :=
  onlyAddsFlags_withWord fun hi => onlyAddsFlags_withWord (x := nextLoc s.cfg e) fun lo => hk (hi, lo)

theorem onlyAddsFlags_withModeOperand {m : Mode} {imm : Half → Word} {k : Flags → Word → Out}
    (hk : ∀ w, OnlyAddsFlags Q fun f => k f w) :
    OnlyAddsFlags Q fun f => withModeOperand m imm (s.withFlags f) e (k f) := by
  cases m with
  | immediate => exact hk _
  | basic => exact onlyAddsFlags_withWord hk
  | memory => exact onlyAddsFlags_withWord hk
  | both => exact onlyAddsFlags_withWord hk

theorem onlyAddsFlags_withMoveOperand {m : MoveMode} {k : Flags → Word → Out}
    (hk : ∀ w, OnlyAddsFlags Q fun f => k f w) :
    OnlyAddsFlags Q fun f => withMoveOperand m ac (s.withFlags f) e (k f) := by
  cases m with
  | immediate => exact hk _
  | memory => exact hk (s.ac ac)
  | basic => exact onlyAddsFlags_withWord hk
  | self => exact onlyAddsFlags_withWord hk

/-! ## Routing groups -/

theorem onlyAddsFlags_arithGroup {m : Mode} {imm : Half → Word} {core : Word → Word → CoreOutcome Word}
    (hc : ∀ x y, (core x y).Reports Q) : OnlyAddsFlags Q fun f => arithGroup m imm core ac a (s.withFlags f) :=
  onlyAddsFlags_withE fun e => onlyAddsFlags_withModeOperand fun b =>
    onlyAddsFlags_retire (hc (s.ac ac) b) (ignoresFlags_storeMode m ac e)

theorem onlyAddsFlags_pairGroup {m : Mode} {core : Word → Word → CoreOutcome (Word × Word)}
    (hc : ∀ x y, (core x y).Reports Q) : OnlyAddsFlags Q fun f => pairGroup m core ac a (s.withFlags f) :=
  onlyAddsFlags_withE fun e => onlyAddsFlags_withModeOperand fun b =>
    onlyAddsFlags_retire (hc (s.ac ac) b) (ignoresFlags_storeModePair m ac e)

theorem onlyAddsFlags_divGroup {m : Mode} {core : Word × Word → Word → CoreOutcome (Word × Word)}
    (hc : ∀ x y, (core x y).Reports Q) : OnlyAddsFlags Q fun f => divGroup m core ac a (s.withFlags f) :=
  onlyAddsFlags_withE fun e => onlyAddsFlags_withModeOperand fun b =>
    onlyAddsFlags_retire (hc (acPair s ac) b) (ignoresFlags_storeModePair m ac e)

theorem onlyAddsFlags_moveGroup {m : MoveMode} {core : Word → CoreOutcome Word} (hc : ∀ x, (core x).Reports Q) :
    OnlyAddsFlags Q fun f => moveGroup m core ac a (s.withFlags f) :=
  onlyAddsFlags_withE fun e => onlyAddsFlags_withMoveOperand fun x =>
    onlyAddsFlags_retire (hc x) (ignoresFlags_storeMove m ac e)

theorem onlyAddsFlags_jumpGroup {c : Cond} {core : Word → CoreOutcome Word} (hc : ∀ x, (core x).Reports Q) :
    OnlyAddsFlags Q fun f => jumpGroup c core ac a (s.withFlags f) :=
  onlyAddsFlags_withE fun e =>
    onlyAddsFlags_retireTo (next := fun r => if c.holds (s36 r) then e else s.pc + 1) (hc (s.ac ac)) (ignoresFlags_setAc ac)

theorem onlyAddsFlags_skipGroup {c : Cond} {core : Word → CoreOutcome Word} (hc : ∀ x, (core x).Reports Q) :
    OnlyAddsFlags Q fun f => skipGroup c core ac a (s.withFlags f) :=
  onlyAddsFlags_withE fun e => onlyAddsFlags_withWord fun x =>
    onlyAddsFlags_retireTo (next := fun r => if c.holds (s36 r) then s.pc + 2 else s.pc + 1) (hc x)
      (ignoresFlags_storeSelf ac e)

theorem onlyAddsFlags_doubleGroup {core : Word × Word → Word × Word → CoreOutcome (Word × Word)}
    (hc : ∀ x y, (core x y).Reports Q) : OnlyAddsFlags Q fun f => doubleGroup core ac a (s.withFlags f) :=
  onlyAddsFlags_withE fun _ => onlyAddsFlags_withPair fun b =>
    onlyAddsFlags_retire (hc (acPair s ac) b) (ignoresFlags_storePair ac)

theorem onlyAddsFlags_countGroup {core : Word → Int → CoreOutcome Word} (hc : ∀ x c, (core x c).Reports Q) :
    OnlyAddsFlags Q fun f => countGroup core ac a (s.withFlags f) :=
  onlyAddsFlags_withE fun e => onlyAddsFlags_retire (hc (s.ac ac) (countOf e)) (ignoresFlags_setAc ac)

theorem onlyAddsFlags_countPairGroup {core : Word × Word → Int → CoreOutcome (Word × Word)}
    (hc : ∀ x c, (core x c).Reports Q) : OnlyAddsFlags Q fun f => countPairGroup core ac a (s.withFlags f) :=
  onlyAddsFlags_withE fun e => onlyAddsFlags_retire (hc (acPair s ac) (countOf e)) (ignoresFlags_storePair ac)

theorem onlyAddsFlags_unaryGroup {core : Word → CoreOutcome Word} (hc : ∀ x, (core x).Reports Q) :
    OnlyAddsFlags Q fun f => unaryGroup core ac a (s.withFlags f) :=
  onlyAddsFlags_withE fun _ => onlyAddsFlags_withWord fun b => onlyAddsFlags_retire (hc b) (ignoresFlags_setAc ac)

theorem onlyAddsFlags_narrowGroup {core : Word × Word → CoreOutcome Word} (hc : ∀ x, (core x).Reports Q) :
    OnlyAddsFlags Q fun f => narrowGroup core ac a (s.withFlags f) :=
  onlyAddsFlags_withE fun _ => onlyAddsFlags_withPair fun b => onlyAddsFlags_retire (hc b) (ignoresFlags_setAc ac)

theorem onlyAddsFlags_widenGroup {core : Word → CoreOutcome (Word × Word)} (hc : ∀ x, (core x).Reports Q) :
    OnlyAddsFlags Q fun f => widenGroup core ac a (s.withFlags f) :=
  onlyAddsFlags_withE fun _ => onlyAddsFlags_withWord fun b => onlyAddsFlags_retire (hc b) (ignoresFlags_storePair ac)

theorem onlyAddsFlags_pairFromMemGroup {core : Word × Word → CoreOutcome (Word × Word)} (hc : ∀ x, (core x).Reports Q) :
    OnlyAddsFlags Q fun f => pairFromMemGroup core ac a (s.withFlags f) :=
  onlyAddsFlags_withE fun _ => onlyAddsFlags_withPair fun b => onlyAddsFlags_retire (hc b) (ignoresFlags_storePair ac)

theorem onlyAddsFlags_ifGfloat {op : BitVec 9} {xop : Option (BitVec 9)} {k : State → Out}
    (hk : OnlyAddsFlags Q fun f => k (s.withFlags f)) :
    OnlyAddsFlags Q fun f => ifGfloat op xop (s.withFlags f) k := by
  by_cases h : s.cfg.hasGfloat = true <;> simp only [ifGfloat, State.withFlags_cfg, h]
  · exact hk
  · exact .refused _

/-- A byte instruction, where its operation does not read the flag register either. -/
theorem onlyAddsFlags_byteGroup {core : State → Word → Except MemInfo Word → CoreOutcome ByteResult}
    (hcore : ∀ f w0 m1, core (s.withFlags f) w0 m1 = core s w0 m1) (hc : ∀ w0 m1, (core s w0 m1).Reports Q) :
    OnlyAddsFlags Q fun f => byteGroup core ac a (s.withFlags f) :=
  onlyAddsFlags_withE fun e => onlyAddsFlags_withWord fun w0 => by
    simp only [hcore, secondWord_withFlags]
    exact onlyAddsFlags_retire (hc w0 (secondWord s e)) (ignoresFlags_storeByte ac e)

end Sys2Proof.Machine

/-! SUPPORT. Overflow and Trap1 in what the operations of the core report (10_state.md R62): every flag set the rules name
holds both or neither, and only a quirk function of R368 is free to report one alone. -/

namespace Sys2Proof

/-- R62: a flag set holds both of Overflow and Trap1 or neither. -/
def Flags.Paired (d : Flags) : Prop := d.overflow = d.trap1

theorem Flags.paired_union {a b : Flags} (ha : a.Paired) (hb : b.Paired) : (a.union b).Paired := by
  unfold Flags.Paired at *
  simp only [Flags.union, ha, hb]

theorem Flags.paired_ite {c : Prop} [Decidable c] {a b : Flags} (ha : a.Paired) (hb : b.Paired) :
    (if c then a else b).Paired := by
  split
  · exact ha
  · exact hb

theorem Flags.paired_when (b : Bool) {f : Flags} (h : f.Paired) : (Flags.when b f).Paired := Flags.paired_ite h rfl

namespace Machine

/-- The same under FIDELITY = Clean only, since what the quirk functions of R368 report is free. -/
def PairedIfClean (cfg : Params) (d : Flags) : Prop := cfg.fidelity = .clean → d.Paired

/-! ## The flag sets of the rules -/

theorem negMaxnegFlags_paired (cfg : Params) : (negMaxnegFlags cfg).Paired :=
  Flags.paired_union rfl (Flags.paired_when _ rfl)

theorem rangeFlags_paired (emax : Nat) (x : Int) : (rangeFlags emax x).Paired :=
  Flags.paired_ite rfl (Flags.paired_ite rfl rfl)

theorem fres_paired (φ : Fmt) (x : Exact) (rnd : Bool) : (fres φ x rnd).2.Paired := by
  unfold fres
  split
  · rfl
  · exact rangeFlags_paired ..

/-! ## Fixed point -/

theorem CoreOutcome.reports_ite {α : Type} {Q : Flags → Prop} {c : Prop} [Decidable c] {o o' : CoreOutcome α}
    (ho : c → o.Reports Q) (ho' : o'.Reports Q) : (if c then o else o').Reports Q := by
  split
  · exact ho ‹_›
  · exact ho'

variable {cfg : Params}

theorem addCore_paired (a b : Word) : (addCore a b).Reports (PairedIfClean cfg) := fun _ => rfl
theorem subCore_paired (a b : Word) : (subCore a b).Reports (PairedIfClean cfg) := fun _ => rfl
theorem incCore_paired (x : Word) : (incCore x).Reports (PairedIfClean cfg) := fun _ => rfl
theorem decCore_paired (x : Word) : (decCore x).Reports (PairedIfClean cfg) := fun _ => rfl
theorem daddCore_paired (a b : Word × Word) : (daddCore a b).Reports (PairedIfClean cfg) := fun _ => rfl
theorem dsubCore_paired (a b : Word × Word) : (dsubCore a b).Reports (PairedIfClean cfg) := fun _ => rfl

theorem negCore_paired (x : Word) : (negCore cfg x).Reports (PairedIfClean cfg) :=
  fun _ => Flags.paired_ite rfl (Flags.paired_ite (negMaxnegFlags_paired cfg) rfl)

theorem magCore_paired (x : Word) : (magCore cfg x).Reports (PairedIfClean cfg) :=
  CoreOutcome.reports_ite (fun _ _ => Flags.paired_ite (negMaxnegFlags_paired cfg) rfl) fun _ => rfl

theorem dnegCore_paired (x : Word × Word) : (dnegCore cfg x).Reports (PairedIfClean cfg) := by
  intro _
  cases cfg.dmovnFlags with
  | silent => rfl
  | asNegate => exact Flags.paired_ite rfl (Flags.paired_ite (negMaxnegFlags_paired cfg) rfl)

theorem imulCore_paired (a b : Word) : (imulCore a b).Reports (PairedIfClean cfg) := fun _ => Flags.paired_when _ rfl
theorem mulCore_paired (a b : Word) : (mulCore a b).Reports (PairedIfClean cfg) := fun _ => Flags.paired_when _ rfl
theorem dmulCore_paired (a b : Word × Word) : (dmulCore a b).Reports (PairedIfClean cfg) :=
  fun _ => Flags.paired_when _ rfl

theorem idivCore_paired (a b : Word) : (idivCore cfg a b).Reports (PairedIfClean cfg) :=
  CoreOutcome.reports_ite (fun _ _ => rfl) (CoreOutcome.reports_ite
    (fun _ => by cases cfg.idivMaxneg <;> exact fun _ => rfl) fun _ => rfl)

theorem divCore_paired (a : Word × Word) (b : Word) : (divCore a b).Reports (PairedIfClean cfg) :=
  CoreOutcome.reports_ite (fun _ _ => rfl) fun _ => rfl

theorem ddivCore_paired (a : (Word × Word) × (Word × Word)) (b : Word × Word) :
    (ddivCore a b).Reports (PairedIfClean cfg) := CoreOutcome.reports_ite (fun _ _ => rfl) fun _ => rfl

/-! ## Logic and shifts -/

theorem boolCore_paired (g : Word → Word → Word) (a b : Word) : (boolCore g a b).Reports (PairedIfClean cfg) := fun _ => rfl

theorem ashCore_paired (x : Word) (c : Int) : (ashCore x c).Reports (PairedIfClean cfg) :=
  CoreOutcome.reports_ite (fun _ _ => Flags.paired_when _ rfl) fun _ => rfl

theorem rotCore_paired (x : Word) (c : Int) : (rotCore x c).Reports (PairedIfClean cfg) := fun _ => rfl

theorem lshCore_paired (x : Word) (c : Int) : (lshCore x c).Reports (PairedIfClean cfg) :=
  CoreOutcome.reports_ite (fun _ _ => rfl) fun _ => rfl

theorem ashcCore_paired (d : Word × Word) (c : Int) : (ashcCore d c).Reports (PairedIfClean cfg) :=
  CoreOutcome.reports_ite (fun _ _ => rfl)
    (CoreOutcome.reports_ite (fun _ _ => Flags.paired_when _ rfl) fun _ => rfl)

theorem rotcCore_paired (d : Word × Word) (c : Int) : (rotcCore d c).Reports (PairedIfClean cfg) := fun _ => rfl

theorem lshcCore_paired (d : Word × Word) (c : Int) : (lshcCore d c).Reports (PairedIfClean cfg) :=
  CoreOutcome.reports_ite (fun _ _ => rfl) fun _ => rfl

/-! ## Floating point -/

theorem resF_paired {x : Exact} {rnd : Bool} : (resF x rnd).Reports (PairedIfClean cfg) := fun _ => fres_paired ..

theorem resPair_paired {φ : Fmt} {x : Exact} {rnd : Bool} : (resPair φ x rnd).Reports (PairedIfClean cfg) :=
  fun _ => fres_paired ..

/-- R368: a quirk function is asked under FIDELITY = Hardware only, where `PairedIfClean` asks nothing of its flags. -/
theorem quirk_paired {α : Type} (o : α × Flags) (h : cfg.fidelity = .hardware) :
    (quirk o).Reports (PairedIfClean cfg) := fun hclean => by simp [h] at hclean

theorem fmpCore_paired (a b : Word) : (fmpCore cfg a b).Reports (PairedIfClean cfg) :=
  CoreOutcome.reports_ite (fun h => quirk_paired _ h.1) resF_paired

theorem fdvCore_paired (rnd : Bool) (a b : Word) : (fdvCore cfg rnd a b).Reports (PairedIfClean cfg) :=
  CoreOutcome.reports_ite (fun _ _ => rfl) (CoreOutcome.reports_ite (fun h => quirk_paired _ h.1) resF_paired)

theorem ufaCore_paired (a b : Word) : (ufaCore a b).Reports (PairedIfClean cfg) :=
  CoreOutcome.reports_ite (fun _ _ => rfl) fun _ => Flags.paired_when _ rfl

theorem fixCore_paired (b : Word) : (fixCore b).Reports (PairedIfClean cfg) :=
  CoreOutcome.reports_ite (fun _ _ => rfl) fun _ => rfl

theorem fixrCore_paired (b : Word) : (fixrCore b).Reports (PairedIfClean cfg) :=
  CoreOutcome.reports_ite (fun _ _ => rfl) fun _ => rfl

theorem dfdvCore_paired (a b : Word × Word) : (dfdvCore cfg a b).Reports (PairedIfClean cfg) :=
  CoreOutcome.reports_ite (fun _ _ => rfl) (CoreOutcome.reports_ite (fun h => quirk_paired _ h.1) resPair_paired)

theorem gfdvCore_paired (a b : Word × Word) : (gfdvCore a b).Reports (PairedIfClean cfg) :=
  CoreOutcome.reports_ite (fun _ _ => rfl) resPair_paired

theorem gfixCore_paired (b : Word × Word) : (gfixCore b).Reports (PairedIfClean cfg) :=
  CoreOutcome.reports_ite (fun _ _ => rfl) fun _ => rfl

theorem gfixrCore_paired (b : Word × Word) : (gfixrCore b).Reports (PairedIfClean cfg) :=
  CoreOutcome.reports_ite (fun _ _ => rfl) fun _ => rfl

theorem dgfixCore_paired (b : Word × Word) : (dgfixCore b).Reports (PairedIfClean cfg) :=
  CoreOutcome.reports_ite (fun _ _ => rfl) fun _ => rfl

theorem dgfixrCore_paired (b : Word × Word) : (dgfixrCore b).Reports (PairedIfClean cfg) :=
  CoreOutcome.reports_ite (fun _ _ => rfl) fun _ => rfl

theorem gfscCore_paired (a : Word × Word) (c : Int) : (gfscCore cfg a c).Reports (PairedIfClean cfg) :=
  CoreOutcome.reports_ite (fun h => quirk_paired _ h.1) resPair_paired

/-! ## Byte pointers -/

variable {Q : Flags → Prop} {s : State}

theorem reports_withPointer {α : Type} {w0 : Word} {m1 : Except MemInfo Word} {k : Bp → CoreOutcome α}
    (hk : ∀ bp, (k bp).Reports Q) : (withPointer cfg w0 m1 k).Reports Q := by
  unfold withPointer
  split
  · trivial
  · split
    · trivial
    · exact hk _

theorem reports_withByteWord {α : Type} {bp : Bp} {k : MemAddr → Word → CoreOutcome α}
    (hk : ∀ x w, (k x w).Reports Q) : (withByteWord s bp k).Reports Q := by
  unfold withByteWord
  split
  · trivial
  · trivial
  · split
    · trivial
    · exact hk _ _

theorem reports_withByteWrite {α : Type} {x : MemAddr} {o : CoreOutcome α} (ho : o.Reports Q) :
    (withByteWrite s x o).Reports Q := by
  unfold withByteWrite
  split
  · trivial
  · exact ho

theorem ldbCore_paired (w0 : Word) (m1 : Except MemInfo Word) : (ldbCore s w0 m1).Reports (PairedIfClean cfg) :=
  reports_withPointer fun _ => reports_withByteWord fun _ _ _ => rfl

theorem dpbCore_paired (b w0 : Word) (m1 : Except MemInfo Word) : (dpbCore s b w0 m1).Reports (PairedIfClean cfg) :=
  reports_withPointer fun _ => reports_withByteWord fun _ _ => reports_withByteWrite fun _ => rfl

theorem ildbCore_paired (w0 : Word) (m1 : Except MemInfo Word) : (ildbCore s w0 m1).Reports (PairedIfClean cfg) :=
  reports_withPointer fun _ => reports_withByteWord fun _ _ _ => rfl

theorem idpbCore_paired (b w0 : Word) (m1 : Except MemInfo Word) : (idpbCore s b w0 m1).Reports (PairedIfClean cfg) :=
  reports_withPointer fun _ => reports_withByteWord fun _ _ => reports_withByteWrite fun _ => rfl

theorem ibpCore_paired (w0 : Word) (m1 : Except MemInfo Word) : (ibpCore s w0 m1).Reports (PairedIfClean cfg) :=
  reports_withPointer fun _ _ => rfl

theorem adjbpCore_paired (count w0 : Word) (m1 : Except MemInfo Word) :
    (adjbpCore s count w0 m1).Reports (PairedIfClean cfg) :=
  reports_withPointer fun _ =>
    CoreOutcome.reports_ite (fun _ _ => rfl) (CoreOutcome.reports_ite (fun _ _ => rfl) fun _ => rfl)

/-! ## The byte operations do not read the flag register -/

@[simp] theorem withByteWord_withFlags {α : Type} (f : Flags) (bp : Bp) (k : MemAddr → Word → CoreOutcome α) :
    withByteWord (s.withFlags f) bp k = withByteWord s bp k := by
  simp only [withByteWord, byteAddr_withFlags, State.withFlags_readWord]

@[simp] theorem withByteWrite_withFlags {α : Type} (f : Flags) (x : MemAddr) (o : CoreOutcome α) :
    withByteWrite (s.withFlags f) x o = withByteWrite s x o := rfl

theorem ldbCore_withFlags (f : Flags) (w0 : Word) (m1 : Except MemInfo Word) :
    ldbCore (s.withFlags f) w0 m1 = ldbCore s w0 m1 := by simp [ldbCore]

theorem dpbCore_withFlags (f : Flags) (b w0 : Word) (m1 : Except MemInfo Word) :
    dpbCore (s.withFlags f) b w0 m1 = dpbCore s b w0 m1 := by simp [dpbCore]

theorem ildbCore_withFlags (f : Flags) (w0 : Word) (m1 : Except MemInfo Word) :
    ildbCore (s.withFlags f) w0 m1 = ildbCore s w0 m1 := by simp [ildbCore]

theorem idpbCore_withFlags (f : Flags) (b w0 : Word) (m1 : Except MemInfo Word) :
    idpbCore (s.withFlags f) b w0 m1 = idpbCore s b w0 m1 := by simp [idpbCore]

theorem ibpCore_withFlags (f : Flags) (w0 : Word) (m1 : Except MemInfo Word) :
    ibpCore (s.withFlags f) w0 m1 = ibpCore s w0 m1 := by simp [ibpCore]

theorem adjbpCore_withFlags (f : Flags) (count w0 : Word) (m1 : Except MemInfo Word) :
    adjbpCore (s.withFlags f) count w0 m1 = adjbpCore s count w0 m1 := by simp [adjbpCore]

end Machine

end Sys2Proof

/-! PROOFS. What every instruction and every step does to the flag register, and the statements of 10_state.md. -/

namespace Sys2Proof.Machine

/-! ## Every instruction and every step -/

/-- R61, R62: one outcome from every flag register, and a delta with both of Overflow and Trap1 or neither. -/
theorem exec_onlyAddsFlags (i : Instr) (s : State) :
    OnlyAddsFlags (PairedIfClean s.cfg) fun f => exec i (s.withFlags f) := by
  cases i with
  | add | addi | addm | addb => exact onlyAddsFlags_arithGroup addCore_paired
  | sub | subi | subm | subb => exact onlyAddsFlags_arithGroup subCore_paired
  | movn | movni | movnm | movns => exact onlyAddsFlags_moveGroup (core := negCore s.cfg) negCore_paired
  | movm | movmm | movms => exact onlyAddsFlags_moveGroup (core := magCore s.cfg) magCore_paired
  | movmi ac a =>
    exact onlyAddsFlags_withE fun e =>
      onlyAddsFlags_retire (o := .done (immWord e) .none) (fun _ => rfl) (ignoresFlags_setAc ac)
  | aoj | aojl | aoje | aojle | aoja | aojge | aojn | aojg => exact onlyAddsFlags_jumpGroup incCore_paired
  | aos | aosl | aose | aosle | aosa | aosge | aosn | aosg => exact onlyAddsFlags_skipGroup incCore_paired
  | soj | sojl | soje | sojle | soja | sojge | sojn | sojg => exact onlyAddsFlags_jumpGroup decCore_paired
  | sos | sosl | sose | sosle | sosa | sosge | sosn | sosg => exact onlyAddsFlags_skipGroup decCore_paired
  | dadd => exact onlyAddsFlags_doubleGroup daddCore_paired
  | dsub => exact onlyAddsFlags_doubleGroup dsubCore_paired
  | dmul ac a =>
    exact onlyAddsFlags_withE fun _ => onlyAddsFlags_withPair fun b =>
      onlyAddsFlags_retire (dmulCore_paired (acPair s ac) b) (ignoresFlags_storeQuad ac)
  | ddiv ac a =>
    exact onlyAddsFlags_withE fun _ => onlyAddsFlags_withPair fun b =>
      onlyAddsFlags_retire (ddivCore_paired (acQuad s ac) b) (ignoresFlags_storeQuad ac)
  | dmovn => exact onlyAddsFlags_pairFromMemGroup (core := dnegCore s.cfg) dnegCore_paired
  | dmovnm ac a =>
    exact onlyAddsFlags_withE fun e =>
      onlyAddsFlags_retire (dnegCore_paired (acPair s ac)) (ignoresFlags_storeMemPair e)
  | imul | imuli | imulm | imulb => exact onlyAddsFlags_arithGroup imulCore_paired
  | mul | muli | mulm | mulb => exact onlyAddsFlags_pairGroup mulCore_paired
  | idiv | idivi | idivm | idivb => exact onlyAddsFlags_pairGroup (core := idivCore s.cfg) idivCore_paired
  | div | divi | divm | divb => exact onlyAddsFlags_divGroup divCore_paired
  | setz | setzi | setzm | setzb | and | andi | andm | andb | andca | andcai | andcam | andcab
  | setm | setmi | setmm | setmb | andcm | andcmi | andcmm | andcmb | seta | setai | setam | setab
  | xor | xori | xorm | xorb | ior | iori | iorm | iorb | andcb | andcbi | andcbm | andcbb
  | eqv | eqvi | eqvm | eqvb | setca | setcai | setcam | setcab | orca | orcai | orcam | orcab
  | setcm | setcmi | setcmm | setcmb | orcm | orcmi | orcmm | orcmb | orcb | orcbi | orcbm | orcbb
  | seto | setoi | setom | setob => exact onlyAddsFlags_arithGroup (boolCore_paired _)
  | ash => exact onlyAddsFlags_countGroup ashCore_paired
  | rot => exact onlyAddsFlags_countGroup rotCore_paired
  | lsh => exact onlyAddsFlags_countGroup lshCore_paired
  | ashc => exact onlyAddsFlags_countPairGroup ashcCore_paired
  | rotc => exact onlyAddsFlags_countPairGroup rotcCore_paired
  | lshc => exact onlyAddsFlags_countPairGroup lshcCore_paired
  | fad | fadm | fadb | fadr | fadri | fadrm | fadrb
  | fsb | fsbm | fsbb | fsbr | fsbri | fsbrm | fsbrb
  | fmpr | fmpri | fmprm | fmprb => exact onlyAddsFlags_arithGroup fun _ _ => resF_paired
  | fmp | fmpm | fmpb => exact onlyAddsFlags_arithGroup (core := fmpCore s.cfg) fmpCore_paired
  | fdv | fdvm | fdvb => exact onlyAddsFlags_arithGroup (core := fdvCore s.cfg false) (fdvCore_paired _)
  | fdvr | fdvri | fdvrm | fdvrb => exact onlyAddsFlags_arithGroup (core := fdvCore s.cfg true) (fdvCore_paired _)
  | ufa ac a =>
    exact onlyAddsFlags_withE fun _ => onlyAddsFlags_withWord fun b =>
      onlyAddsFlags_retire (ufaCore_paired (s.ac ac) b) (ignoresFlags_setAc (ac + 1))
  | fix => exact onlyAddsFlags_unaryGroup fixCore_paired
  | fixr => exact onlyAddsFlags_unaryGroup fixrCore_paired
  | fltr => exact onlyAddsFlags_unaryGroup fun _ => resF_paired
  | fsc => exact onlyAddsFlags_countGroup fun _ _ => resF_paired
  | dfad =>
    exact onlyAddsFlags_doubleGroup (core := floatAddCore .d s.cfg.doubleRound) fun _ _ => resPair_paired
  | dfsb =>
    exact onlyAddsFlags_doubleGroup (core := floatSubCore .d s.cfg.doubleRound) fun _ _ => resPair_paired
  | dfmp =>
    exact onlyAddsFlags_doubleGroup (core := floatMulCore .d s.cfg.doubleRound) fun _ _ => resPair_paired
  | dfdv => exact onlyAddsFlags_doubleGroup (core := dfdvCore s.cfg) dfdvCore_paired
  | gfad | gfsb | gfmp =>
    exact onlyAddsFlags_ifGfloat (onlyAddsFlags_doubleGroup fun _ _ => resPair_paired)
  | gfdv => exact onlyAddsFlags_ifGfloat (onlyAddsFlags_doubleGroup gfdvCore_paired)
  | gsngl => exact onlyAddsFlags_ifGfloat (onlyAddsFlags_narrowGroup fun _ => resF_paired)
  | gfix => exact onlyAddsFlags_ifGfloat (onlyAddsFlags_narrowGroup gfixCore_paired)
  | gfixr => exact onlyAddsFlags_ifGfloat (onlyAddsFlags_narrowGroup gfixrCore_paired)
  | gdble | gfltr => exact onlyAddsFlags_ifGfloat (onlyAddsFlags_widenGroup fun _ => resPair_paired)
  | dgfix => exact onlyAddsFlags_ifGfloat (onlyAddsFlags_pairFromMemGroup dgfixCore_paired)
  | dgfixr => exact onlyAddsFlags_ifGfloat (onlyAddsFlags_pairFromMemGroup dgfixrCore_paired)
  | dgfltr => exact onlyAddsFlags_ifGfloat (onlyAddsFlags_pairFromMemGroup fun _ => resPair_paired)
  | gfsc =>
    exact onlyAddsFlags_ifGfloat (onlyAddsFlags_countPairGroup (core := gfscCore s.cfg) gfscCore_paired)
  | ibp => exact onlyAddsFlags_byteGroup ibpCore_withFlags ibpCore_paired
  | ildb => exact onlyAddsFlags_byteGroup ildbCore_withFlags ildbCore_paired
  | ldb => exact onlyAddsFlags_byteGroup ldbCore_withFlags ldbCore_paired
  | adjbp ac a =>
    exact onlyAddsFlags_byteGroup (core := fun s => adjbpCore s (s.ac ac)) (fun f => adjbpCore_withFlags f (s.ac ac))
      (adjbpCore_paired (s.ac ac))
  | idpb ac a =>
    exact onlyAddsFlags_byteGroup (core := fun s => idpbCore s (s.ac ac)) (fun f => idpbCore_withFlags f (s.ac ac))
      (idpbCore_paired (s.ac ac))
  | dpb ac a =>
    exact onlyAddsFlags_byteGroup (core := fun s => dpbCore s (s.ac ac)) (fun f => dpbCore_withFlags f (s.ac ac))
      (dpbCore_paired (s.ac ac))

theorem runWords_onlyAddsFlags (ws : List Word) (s : State) :
    OnlyAddsFlags (PairedIfClean s.cfg) fun f => runWords ws (s.withFlags f) := by
  unfold runWords
  by_cases hh : isHaltWords ws = true
  · simp only [hh, if_true, haltRun_withFlags]
    exact .next_same _ fun _ => rfl
  · simp only [hh]
    cases decode ws with
    | error r => exact .refused _
    | ok p => exact exec_onlyAddsFlags p.1 s

theorem step_onlyAddsFlags (s : State) : OnlyAddsFlags (PairedIfClean s.cfg) fun f => step (s.withFlags f) := by
  unfold step
  simp only [State.withFlags_run, fetchWords_withFlags]
  cases s.run with
  | halted => exact .next_same s fun _ => rfl
  | faulted r => exact .fault r
  | refused r => exact .refused r
  | running =>
    cases fetchWords s with
    | error r => exact .fault r
    | ok ws => exact runWords_onlyAddsFlags ws s

/-! ## The statements -/

/-- Which delta is added aside, one outcome from every flag register is what R61 asks. -/
theorem OnlyAddsFlags.outcome {Q : Flags → Prop} {o : Flags → Out} (h : OnlyAddsFlags Q o) :
    (∃ (d : Flags) (t : State), ∀ f, o f = .next { t with flags := f.union d }) ∨
    (∃ r, ∀ f, o f = .fault r) ∨ (∃ r, ∀ f, o f = .refused r) :=
  h.imp_left fun ⟨d, t, _, hd⟩ => ⟨d, t, hd⟩

/-- Settles O13: every operation and store is the same under another flag register, so an instruction's end adds one delta. -/
theorem flagsAreNeverReadNorCleared : Obligations.FlagsAreNeverReadNorCleared :=
  ⟨fun i s => (exec_onlyAddsFlags i s).outcome, fun s => (step_onlyAddsFlags s).outcome⟩

/-- Settles O14: the delta a step adds holds both of Overflow and Trap1 or neither. -/
theorem overflowAndTrap1ArePaired : Obligations.OverflowAndTrap1ArePaired := by
  intro s t hclean hpaired hstep
  obtain ⟨d, hd, hflags⟩ := (step_onlyAddsFlags s).flags_of_next hstep
  rw [hflags]
  exact Flags.paired_union hpaired (hd hclean)

/-- Settles O12: no primitive store writes these fields, and HALT writes the run state alone. -/
theorem stepKeepsTheParameters : Obligations.StepKeepsTheParameters := by
  intro s t h
  obtain ⟨-, rfl⟩ | ⟨-, rfl | ⟨ws, i, rest, -, -, hexec⟩⟩ := step_next h
  · exact ⟨rfl, rfl, .inl rfl⟩
  · exact ⟨rfl, rfl, .inr rfl⟩
  · obtain ⟨hcfg, hrun, hfaults⟩ := keep_exec (cfgRunKeep s.cfg s.run s.writeFaults) ⟨rfl, rfl, rfl⟩ hexec
    exact ⟨hcfg, hfaults, .inl hrun⟩

/-- Settles O1: above the accumulators an empty memory reads as unwritten. -/
theorem resetIsClearAndUnwritten : Obligations.ResetIsClearAndUnwritten := by
  intro cfg
  refine ⟨rfl, rfl, rfl, fun x hx => ?_⟩
  rw [State.readWord, if_neg (by omega)]
  rfl

/-- Settles O18: the flag bits by their offsets in the concatenation, the PC as its low 18 bits. -/
theorem pcWordHoldsTheFlags : Obligations.PcWordHoldsTheFlags := by
  intro f pc
  have hpc : (pcWord f pc).setWidth 18 = pc := BitVec.setWidth_append_eq_right
  refine ⟨?_, ?_, ?_, ?_, ?_, ?_, ?_, ?pc⟩
  case pc => rw [← BitVec.toNat_setWidth, hpc]
  all_goals
    rw [pcWord, BitVec.getLsbD_append]
    simp only [BitVec.getLsbD_append]
    simp

end Sys2Proof.Machine

/-! SUPPORT. MemRead and MemWrite by where the address lies (70_reset_and_hazards.md R710): at an accumulator's address or
above them all. -/

namespace Sys2Proof.Machine

/-! ## Accumulators as addresses -/

theorem acAddr_lt (n : AcNum) : (n.setWidth 30).toNat < 16 := by
  rw [BitVec.toNat_setWidth_of_le (by decide)]
  exact n.isLt

/-- R107: the addresses below 20 octal are those of the accumulators. -/
theorem exists_acAddr {x : MemAddr} (hx : x.toNat < 16) : ∃ n : AcNum, n.setWidth 30 = x :=
  ⟨x.setWidth 4, by bv_omega⟩

theorem acAddr_inj {m n : AcNum} : m.setWidth 30 = n.setWidth 30 ↔ m = n :=
  ⟨fun h => by bv_omega, fun h => h ▸ rfl⟩

/-- No address above the accumulators is an accumulator's. -/
theorem ne_of_ac_side {x y : MemAddr} (hx : x.toNat < 16) (hy : ¬ y.toNat < 16) : x ≠ y :=
  fun h => hy (h ▸ hx)

/-! ## Reading and writing on either side -/

@[simp] theorem State.readWord_acAddr (s : State) (n : AcNum) : s.readWord (n.setWidth 30) = some (s.ac n) := by
  rw [State.readWord, if_pos (acAddr_lt n), BitVec.setWidth_setWidth_of_le _ (by decide), BitVec.setWidth_eq]

@[simp] theorem State.writeWord_acAddr (s : State) (n : AcNum) (w : Word) :
    s.writeWord (n.setWidth 30) w = s.setAc n w := by
  rw [State.writeWord, if_pos (acAddr_lt n), BitVec.setWidth_setWidth_of_le _ (by decide), BitVec.setWidth_eq]

theorem State.readWord_above (s : State) {x : MemAddr} (hx : ¬ x.toNat < 16) :
    s.readWord x = Memory.read s.mem x.toNat := if_neg hx

theorem State.writeWord_above (s : State) {x : MemAddr} (hx : ¬ x.toNat < 16) (w : Word) :
    s.writeWord x w = { s with mem := Memory.write s.mem x.toNat w } := if_neg hx

/-- A store to an accumulator is seen at that accumulator's address only. -/
theorem State.readWord_setAc (s : State) (n : AcNum) (w : Word) (y : MemAddr) :
    (s.setAc n w).readWord y = if y = n.setWidth 30 then some w else s.readWord y := by
  by_cases hy : y.toNat < 16
  · obtain ⟨m, rfl⟩ := exists_acAddr hy
    simp only [State.readWord_acAddr, State.ac_setAc, acAddr_inj, apply_ite some]
  · rw [if_neg (ne_of_ac_side (acAddr_lt n) hy).symm, State.readWord_above _ hy, State.readWord_above _ hy,
      State.setAc_mem]

/-- R105, R110: MemRead returns the latest MemWrite to its address, at an accumulator's address and above them. -/
theorem State.readWord_writeWord (s : State) (x y : MemAddr) (w : Word) :
    (s.writeWord x w).readWord y = if y = x then some w else s.readWord y := by
  by_cases hx : x.toNat < 16
  · obtain ⟨n, rfl⟩ := exists_acAddr hx
    rw [State.writeWord_acAddr, State.readWord_setAc]
  · rw [State.writeWord_above s hx]
    by_cases hy : y.toNat < 16
    · obtain ⟨m, rfl⟩ := exists_acAddr hy
      rw [if_neg (ne_of_ac_side hy hx), State.readWord_acAddr, State.readWord_acAddr]
      rfl
    · simp only [State.readWord_above _ hy, Memory.read_write, BitVec.toNat_inj]

end Sys2Proof.Machine

/-! PROOFS. The statements of 20_memory.md. -/

namespace Sys2Proof.Machine

/-- Settles O11: the canonical form is kept by each primitive store, hence by every instruction; HALT writes no memory. -/
theorem stepKeepsMemoryCanonical : Obligations.StepKeepsMemoryCanonical := by
  intro s t hs h
  obtain ⟨-, rfl⟩ | ⟨-, rfl | ⟨ws, i, rest, -, -, hexec⟩⟩ := step_next h
  · exact hs
  · exact hs
  · exact keep_exec wfKeep hs hexec

/-- Settles O10: the read-after-write law, and the accumulators as the words at their own addresses. -/
theorem readSeesTheLatestWrite : Obligations.ReadSeesTheLatestWrite :=
  ⟨State.readWord_writeWord, fun s n w =>
    ⟨s.readWord_acAddr n, s.writeWord_acAddr n w, s.ac_setAc_same n w, s.setAc_mem n w, fun m => s.ac_setAc_other n m w⟩⟩

end Sys2Proof.Machine

/-! SUPPORT. Decoding and encoding, said once (30_encoding.md R150-R153): a word is its fields, what each form decodes
to, every decode inverted, and the rows of the opcode map against the encoder's opcodes. -/

namespace Sys2Proof.Laws.DecodeRow

/-- R150-R153: the opcode map has the row of every instruction. -/
theorem holds (i : Instr) : Statement i :=
  match i with
  | .add .. => add _ _ | .addi .. => addi _ _ | .addm .. => addm _ _ | .addb .. => addb _ _ | .sub .. => sub _ _
  | .subi .. => subi _ _ | .subm .. => subm _ _ | .subb .. => subb _ _ | .movn .. => movn _ _
  | .movni .. => movni _ _ | .movnm .. => movnm _ _ | .movns .. => movns _ _ | .movm .. => movm _ _
  | .movmi .. => movmi _ _ | .movmm .. => movmm _ _ | .movms .. => movms _ _ | .aoj .. => aoj _ _
  | .aojl .. => aojl _ _ | .aoje .. => aoje _ _ | .aojle .. => aojle _ _ | .aoja .. => aoja _ _
  | .aojge .. => aojge _ _ | .aojn .. => aojn _ _ | .aojg .. => aojg _ _ | .aos .. => aos _ _ | .aosl .. => aosl _ _
  | .aose .. => aose _ _ | .aosle .. => aosle _ _ | .aosa .. => aosa _ _ | .aosge .. => aosge _ _
  | .aosn .. => aosn _ _ | .aosg .. => aosg _ _ | .soj .. => soj _ _ | .sojl .. => sojl _ _ | .soje .. => soje _ _
  | .sojle .. => sojle _ _ | .soja .. => soja _ _ | .sojge .. => sojge _ _ | .sojn .. => sojn _ _
  | .sojg .. => sojg _ _ | .sos .. => sos _ _ | .sosl .. => sosl _ _ | .sose .. => sose _ _ | .sosle .. => sosle _ _
  | .sosa .. => sosa _ _ | .sosge .. => sosge _ _ | .sosn .. => sosn _ _ | .sosg .. => sosg _ _
  | .dadd .. => dadd _ _ | .dsub .. => dsub _ _ | .dmul .. => dmul _ _ | .ddiv .. => ddiv _ _
  | .dmovn .. => dmovn _ _ | .dmovnm .. => dmovnm _ _ | .imul .. => imul _ _ | .imuli .. => imuli _ _
  | .imulm .. => imulm _ _ | .imulb .. => imulb _ _ | .mul .. => mul _ _ | .muli .. => muli _ _
  | .mulm .. => mulm _ _ | .mulb .. => mulb _ _ | .idiv .. => idiv _ _ | .idivi .. => idivi _ _
  | .idivm .. => idivm _ _ | .idivb .. => idivb _ _ | .div .. => div _ _ | .divi .. => divi _ _
  | .divm .. => divm _ _ | .divb .. => divb _ _ | .setz .. => setz _ _ | .setzi .. => setzi _ _
  | .setzm .. => setzm _ _ | .setzb .. => setzb _ _ | .and .. => and _ _ | .andi .. => andi _ _
  | .andm .. => andm _ _ | .andb .. => andb _ _ | .andca .. => andca _ _ | .andcai .. => andcai _ _
  | .andcam .. => andcam _ _ | .andcab .. => andcab _ _ | .setm .. => setm _ _ | .setmi .. => setmi _ _
  | .setmm .. => setmm _ _ | .setmb .. => setmb _ _ | .andcm .. => andcm _ _ | .andcmi .. => andcmi _ _
  | .andcmm .. => andcmm _ _ | .andcmb .. => andcmb _ _ | .seta .. => seta _ _ | .setai .. => setai _ _
  | .setam .. => setam _ _ | .setab .. => setab _ _ | .xor .. => xor _ _ | .xori .. => xori _ _
  | .xorm .. => xorm _ _ | .xorb .. => xorb _ _ | .ior .. => ior _ _ | .iori .. => iori _ _ | .iorm .. => iorm _ _
  | .iorb .. => iorb _ _ | .andcb .. => andcb _ _ | .andcbi .. => andcbi _ _ | .andcbm .. => andcbm _ _
  | .andcbb .. => andcbb _ _ | .eqv .. => eqv _ _ | .eqvi .. => eqvi _ _ | .eqvm .. => eqvm _ _
  | .eqvb .. => eqvb _ _ | .setca .. => setca _ _ | .setcai .. => setcai _ _ | .setcam .. => setcam _ _
  | .setcab .. => setcab _ _ | .orca .. => orca _ _ | .orcai .. => orcai _ _ | .orcam .. => orcam _ _
  | .orcab .. => orcab _ _ | .setcm .. => setcm _ _ | .setcmi .. => setcmi _ _ | .setcmm .. => setcmm _ _
  | .setcmb .. => setcmb _ _ | .orcm .. => orcm _ _ | .orcmi .. => orcmi _ _ | .orcmm .. => orcmm _ _
  | .orcmb .. => orcmb _ _ | .orcb .. => orcb _ _ | .orcbi .. => orcbi _ _ | .orcbm .. => orcbm _ _
  | .orcbb .. => orcbb _ _ | .seto .. => seto _ _ | .setoi .. => setoi _ _ | .setom .. => setom _ _
  | .setob .. => setob _ _ | .ash .. => ash _ _ | .rot .. => rot _ _ | .lsh .. => lsh _ _ | .ashc .. => ashc _ _
  | .rotc .. => rotc _ _ | .lshc .. => lshc _ _ | .fad .. => fad _ _ | .fadm .. => fadm _ _ | .fadb .. => fadb _ _
  | .fadr .. => fadr _ _ | .fadri .. => fadri _ _ | .fadrm .. => fadrm _ _ | .fadrb .. => fadrb _ _
  | .fsb .. => fsb _ _ | .fsbm .. => fsbm _ _ | .fsbb .. => fsbb _ _ | .fsbr .. => fsbr _ _ | .fsbri .. => fsbri _ _
  | .fsbrm .. => fsbrm _ _ | .fsbrb .. => fsbrb _ _ | .fmp .. => fmp _ _ | .fmpm .. => fmpm _ _
  | .fmpb .. => fmpb _ _ | .fmpr .. => fmpr _ _ | .fmpri .. => fmpri _ _ | .fmprm .. => fmprm _ _
  | .fmprb .. => fmprb _ _ | .fdv .. => fdv _ _ | .fdvm .. => fdvm _ _ | .fdvb .. => fdvb _ _ | .fdvr .. => fdvr _ _
  | .fdvri .. => fdvri _ _ | .fdvrm .. => fdvrm _ _ | .fdvrb .. => fdvrb _ _ | .ufa .. => ufa _ _
  | .fsc .. => fsc _ _ | .fix .. => fix _ _ | .fixr .. => fixr _ _ | .fltr .. => fltr _ _ | .dfad .. => dfad _ _
  | .dfsb .. => dfsb _ _ | .dfmp .. => dfmp _ _ | .dfdv .. => dfdv _ _ | .gfad .. => gfad _ _ | .gfsb .. => gfsb _ _
  | .gfmp .. => gfmp _ _ | .gfdv .. => gfdv _ _ | .gsngl .. => gsngl _ _ _ _ | .gdble .. => gdble _ _ _ _
  | .dgfix .. => dgfix _ _ _ _ | .gfix .. => gfix _ _ _ _ | .dgfixr .. => dgfixr _ _ _ _ | .gfixr .. => gfixr _ _ _ _
  | .dgfltr .. => dgfltr _ _ _ _ | .gfltr .. => gfltr _ _ _ _ | .gfsc .. => gfsc _ _ _ _ | .ibp .. => ibp _
  | .adjbp .. => adjbp _ _ | .ildb .. => ildb _ _ | .ldb .. => ldb _ _ | .idpb .. => idpb _ _ | .dpb .. => dpb _ _

end Sys2Proof.Laws.DecodeRow

namespace Sys2Proof

/-! ## The fields of a word -/

@[simp] theorem opOf_wordOf (op : BitVec 9) (ac : AcNum) (a : AddrSpec) : opOf (wordOf op ac a) = op :=
  BitVec.extractLsb'_append_eq_left

@[simp] theorem acOf_wordOf (op : BitVec 9) (ac : AcNum) (a : AddrSpec) : acOf (wordOf op ac a) = ac :=
  (BitVec.extractLsb'_append_eq_of_add_le (by decide)).trans BitVec.extractLsb'_append_eq_left

@[simp] theorem addrOf_wordOf (op : BitVec 9) (ac : AcNum) (a : AddrSpec) : addrOf (wordOf op ac a) = a := by
  obtain ⟨i, x, y⟩ := a
  have hi : (wordOf op ac ⟨i, x, y⟩).getLsbD 22 = i := by
    simp only [wordOf, BitVec.getLsbD_append]
    simp
  have hx : (wordOf op ac ⟨i, x, y⟩).extractLsb' 18 4 = x := by
    iterate 3 refine (BitVec.extractLsb'_append_eq_of_add_le (by decide)).trans ?_
    exact BitVec.extractLsb'_append_eq_left
  have hy : (wordOf op ac ⟨i, x, y⟩).extractLsb' 0 18 = y := by
    iterate 3 refine (BitVec.extractLsb'_append_eq_of_add_le (by decide)).trans ?_
    exact BitVec.extractLsb'_append_eq_right
  rw [addrOf, hi, hx, hy]

/-- R151: the five fields are all of a word. -/
@[simp] theorem wordOf_fields (w : Word) : wordOf (opOf w) (acOf w) (addrOf w) = w := by
  have hbit : BitVec.ofBool (w.getLsbD 22) = w.extractLsb' 22 1 := by
    ext j hj
    obtain rfl : j = 0 := by omega
    simp
  simp only [wordOf, opOf, acOf, addrOf, hbit]
  rw [BitVec.extractLsb'_append_extractLsb'_eq_extractLsb' (show 18 = 0 + 18 from rfl),
    BitVec.extractLsb'_append_extractLsb'_eq_extractLsb' (show 22 = 0 + (4 + 18) from rfl),
    BitVec.extractLsb'_append_extractLsb'_eq_extractLsb' (show 23 = 0 + (1 + (4 + 18)) from rfl),
    BitVec.extractLsb'_append_extractLsb'_eq_extractLsb' (show 27 = 0 + (4 + (1 + (4 + 18))) from rfl)]
  exact BitVec.extractLsb'_eq_self

/-! ## Decoding -/

theorem decodeBasic_of_lookup {w : Word} {make : BasicMaker} (h : basicRows.lookup (opOf w).toNat = some make) :
    decodeBasic w = .ok (make (acOf w) (addrOf w)) := by
  simp only [decodeBasic, h]

theorem decodeBasic_of_lookup_none {w : Word} (h : basicRows.lookup (opOf w).toNat = none) :
    decodeBasic w = .error (.notInCore (opOf w) none) := by
  simp only [decodeBasic, h]

theorem decodeExtend_of_lookup {w x : Word} {make : ExtendMaker} (h : extendRows.lookup (opOf x).toNat = some make) :
    decodeExtend w x = .ok (make (acOf w) (addrOf w) (acOf x) (addrOf x)) := by
  simp only [decodeExtend, h]

theorem decodeExtend_of_lookup_none {w x : Word} (h : extendRows.lookup (opOf x).toNat = none) :
    decodeExtend w x = .error (.notInCore (opOf w) (some (opOf x))) := by
  simp only [decodeExtend, h]

theorem decode_basic {w : Word} (h : opOf w ≠ extendOp) (ws : List Word) :
    decode (w :: ws) = (decodeBasic w).map fun i => (i, ws) := if_neg h

theorem decode_extend {w : Word} (h : opOf w = extendOp) (x : Word) (ws : List Word) :
    decode (w :: x :: ws) = (decodeExtend w x).map fun i => (i, ws) := if_pos h

/-- R156: a word in the basic format whose opcode has no row. -/
theorem decode_basic_notInCore {w : Word} (hop : opOf w ≠ extendOp) (h : basicRows.lookup (opOf w).toNat = none)
    (ws : List Word) : decode (w :: ws) = .error (.notInCore (opOf w) none) := by
  rw [decode_basic hop, decodeBasic_of_lookup_none h]
  rfl

/-- R156: the words of the EXTEND form whose extended opcode has no row. -/
theorem decode_extend_notInCore {w x : Word} (hop : opOf w = extendOp) (h : extendRows.lookup (opOf x).toNat = none)
    (ws : List Word) : decode (w :: x :: ws) = .error (.notInCore (opOf w) (some (opOf x))) := by
  rw [decode_extend hop, decodeExtend_of_lookup_none h]
  rfl

theorem decodeBasic_ok {w : Word} {i : Instr} (h : decodeBasic w = .ok i) :
    ∃ make, basicRows.lookup (opOf w).toNat = some make ∧ make (acOf w) (addrOf w) = i := by
  cases hl : basicRows.lookup (opOf w).toNat with
  | none => simp [decodeBasic_of_lookup_none hl] at h
  | some make => exact ⟨make, rfl, by simpa [decodeBasic_of_lookup hl] using h⟩

theorem decodeExtend_ok {w x : Word} {i : Instr} (h : decodeExtend w x = .ok i) :
    ∃ make, extendRows.lookup (opOf x).toNat = some make ∧ make (acOf w) (addrOf w) (acOf x) (addrOf x) = i := by
  cases hl : extendRows.lookup (opOf x).toNat with
  | none => simp [decodeExtend_of_lookup_none hl] at h
  | some make => exact ⟨make, rfl, by simpa [decodeExtend_of_lookup hl] using h⟩

theorem exceptMap_pair_ok {ε α β : Type} {e : Except ε α} {r r' : β} {a : α}
    (h : e.map (fun a => (a, r)) = .ok (a, r')) : e = .ok a ∧ r = r' := by
  cases e <;> simp_all [Except.map]

/-- R150-R153: words that decode begin with one word in the basic format, or with the two of the EXTEND form. -/
theorem decode_ok {ws rest : List Word} {i : Instr} (h : decode ws = .ok (i, rest)) :
    (∃ w, ws = w :: rest ∧ opOf w ≠ extendOp ∧ decodeBasic w = .ok i) ∨
    (∃ w x, ws = w :: x :: rest ∧ opOf w = extendOp ∧ decodeExtend w x = .ok i) := by
  match ws with
  | [] => cases h
  | w :: ws =>
    by_cases hop : opOf w = extendOp
    · match ws with
      | [] => simp [decode, hop] at h
      | x :: ws =>
        rw [decode_extend hop] at h
        obtain ⟨hi, rfl⟩ := exceptMap_pair_ok h
        exact .inr ⟨w, x, rfl, hop, hi⟩
    · rw [decode_basic hop] at h
      obtain ⟨hi, rfl⟩ := exceptMap_pair_ok h
      exact .inl ⟨w, rfl, hop, hi⟩

/-! ## The rows of the opcode map -/

/-- The encoder gives what a row makes the opcode and the fields of the row. -/
def RowEncodes (row : Nat × BasicMaker) : Prop :=
  ∀ ac a, (row.2 ac a).wf = true ∧ (row.2 ac a).layout = .basic (BitVec.ofNat 9 row.1) ac a

theorem mem_of_lookup {α : Type} {rows : List (Nat × α)} {k : Nat} {v : α} (h : rows.lookup k = some v) :
    (k, v) ∈ rows := by
  obtain ⟨l₁, l₂, rfl, -⟩ := List.lookup_eq_some_iff.mp h
  simp

/-- R153: opcode 133 is IBP where its AC field is 0 and ADJBP where it is not; the encoder writes both under it. -/
theorem rowEncodes_ibp_adjbp : RowEncodes (0o133, fun ac a => if ac = 0 then .ibp a else .adjbp ac a) := by
  intro ac a
  rcases eq_or_ne ac 0 with rfl | hac
  · exact ⟨rfl, rfl⟩
  · simp only [if_neg hac]
    exact ⟨by simpa [Instr.wf] using hac, rfl⟩

theorem basicRows_encode : ∀ row ∈ basicRows, RowEncodes row := by
  simp only [basicRows, addSubRows, moveRows, incDecRows, incRows, decRows, doubleFixedRows, mulDivRows, booleanRows,
    booleanRows0, booleanRows4, booleanRows8, booleanRows12, shiftRows, floatRows, floatAddSubRows, floatMulDivRows,
    floatFixedPortRows, doubleFloatRows, byteRows, List.forall_mem_append, List.forall_mem_cons, rowEncodes_ibp_adjbp,
    List.not_mem_nil, false_implies, implies_true, true_and, and_true]
  and_intros <;> exact fun _ _ => ⟨rfl, rfl⟩

theorem extendRows_encode : ∀ row ∈ extendRows, ∀ ac a xac b,
    (row.2 ac a xac b).wf = true ∧ (row.2 ac a xac b).layout = .extend ac a (BitVec.ofNat 9 row.1) xac b := by
  simp only [extendRows, List.forall_mem_cons, List.not_mem_nil, false_implies, implies_true, and_true]
  and_intros <;> exact fun _ _ _ _ => ⟨rfl, rfl⟩

/-! ## Encoding -/

theorem encode_basic {i : Instr} {op ac a} (h : i.layout = .basic op ac a) : encode i = [wordOf op ac a] := by
  simp only [encode, h]

theorem encode_extend {i : Instr} {ac a xop xac b} (h : i.layout = .extend ac a xop xac b) :
    encode i = [wordOf extendOp ac a, wordOf xop xac b] := by
  simp only [encode, h]

theorem encode_of_decodeBasic {w : Word} {i : Instr} (h : decodeBasic w = .ok i) : i.wf = true ∧ encode i = [w] := by
  obtain ⟨make, hrow, rfl⟩ := decodeBasic_ok h
  obtain ⟨hwf, hlayout⟩ := basicRows_encode _ (mem_of_lookup hrow) (acOf w) (addrOf w)
  exact ⟨hwf, by rw [encode_basic hlayout, BitVec.ofNat_toNat, BitVec.setWidth_eq, wordOf_fields]⟩

theorem encode_of_decodeExtend {w x : Word} {i : Instr} (hop : opOf w = extendOp) (h : decodeExtend w x = .ok i) :
    i.wf = true ∧ encode i = [w, x] := by
  obtain ⟨make, hrow, rfl⟩ := decodeExtend_ok h
  obtain ⟨hwf, hlayout⟩ := extendRows_encode _ (mem_of_lookup hrow) (acOf w) (addrOf w) (acOf x) (addrOf x)
  refine ⟨hwf, ?_⟩
  rw [encode_extend hlayout, BitVec.ofNat_toNat, BitVec.setWidth_eq, wordOf_fields, ← hop, wordOf_fields]

end Sys2Proof

/-! SUPPORT. A step that fetches words of no instruction, and the opcodes the map has rows for (30_encoding.md R153,
R156). -/

namespace Sys2Proof.Machine

/-! ## The words a step fetches -/

theorem fetchAddr_ok {s : State} {w : Word} {e : Half} (h : effAddr s (addrOf w) = .ok e) : fetchAddr s w = .ok e := by
  simp only [fetchAddr, h]

theorem wordAt_some {s : State} {a : MemAddr} {w : Word} (h : s.readWord a = some w) : wordAt s a = .ok w := by
  simp only [wordAt, h]

theorem fetchWords_basic {s : State} {w : Word} {e : Half} (hw : s.readWord (loc s.pc) = some w)
    (he : effAddr s (addrOf w) = .ok e) (hop : opOf w ≠ extendOp) : fetchWords s = .ok [w] := by
  simp only [fetchWords, wordAt_some hw, fetchAddr_ok he, if_neg hop]

theorem fetchWords_extend {s : State} {w x : Word} {e e1 : Half} (hw : s.readWord (loc s.pc) = some w)
    (he : effAddr s (addrOf w) = .ok e) (hop : opOf w = extendOp) (hx : s.readWord (loc e) = some x)
    (he1 : effAddr s (addrOf x) = .ok e1) : fetchWords s = .ok [w, x] := by
  simp only [fetchWords, wordAt_some hw, fetchAddr_ok he, if_pos hop, wordAt_some hx, fetchAddr_ok he1]

theorem step_of_fetchWords {s : State} {ws : List Word} (hrun : s.run = .running) (h : fetchWords s = .ok ws) :
    step s = runWords ws s := by
  simp only [step, hrun, h]

theorem runWords_of_decode_error {s : State} {ws : List Word} {r : Reject} (hhalt : isHaltWords ws = false)
    (h : decode ws = .error r) : runWords ws s = .refused (rejectRefusal r) := by
  simp only [runWords, hhalt, h, Bool.false_eq_true, if_false]

theorem ifGfloat_refused {op : BitVec 9} {xop : Option (BitVec 9)} {s : State} {k : State → Out}
    (h : s.cfg.hasGfloat = false) : ifGfloat op xop s k = .refused (.notInCore op xop) := by
  simp only [ifGfloat, h, Bool.false_eq_true, if_false]

/-! ## The opcodes of the map -/

theorem coreOpcode_of_mem_basicRows : ∀ row ∈ basicRows, Claims.coreOpcode row.1 := by
  simp only [basicRows, incDecRows, booleanRows, floatRows, List.forall_mem_append, Claims.coreOpcode]
  and_intros <;> decide

theorem extendOpcode_of_mem_extendRows : ∀ row ∈ extendRows, 0o21 ≤ row.1 ∧ row.1 ≤ 0o31 := by decide

theorem coreOpcode_extendOp : Claims.coreOpcode extendOp.toNat := by
  unfold Claims.coreOpcode
  decide

/-- Where every row's opcode has a property, an opcode without it has no row. -/
theorem lookup_eq_none_of_not {α : Type} {P : Nat → Prop} {rows : List (Nat × α)} (hrows : ∀ row ∈ rows, P row.1)
    {op : Nat} (hop : ¬ P op) : rows.lookup op = none := by
  refine List.lookup_eq_none_iff.mpr fun row hrow => bne_iff_ne.mpr ?_
  rintro rfl
  exact hop (hrows row hrow)

theorem basicRows_lookup_eq_none {op : Nat} (h : ¬ Claims.coreOpcode op) : basicRows.lookup op = none :=
  lookup_eq_none_of_not coreOpcode_of_mem_basicRows h

theorem extendRows_lookup_eq_none {op : Nat} (h : ¬ (0o21 ≤ op ∧ op ≤ 0o31)) : extendRows.lookup op = none :=
  lookup_eq_none_of_not (P := fun op => 0o21 ≤ op ∧ op ≤ 0o31) extendOpcode_of_mem_extendRows h

end Sys2Proof.Machine

/-! PROOFS. The statements of 30_encoding.md. -/

namespace Sys2Proof.Machine

/-- Settles O19: the opcode map, looked up at the encoder's opcode, makes the instruction of the fields it wrote. -/
theorem decodeOfEncode : Obligations.DecodeOfEncode := by
  intro i ws hwf
  have hrow := Laws.DecodeRow.holds i hwf
  cases hlayout : i.layout with
  | basic op ac a =>
    rw [hlayout] at hrow
    obtain ⟨hop, make, hlookup, hmake⟩ := hrow
    rw [encode_basic hlayout, List.singleton_append, decode_basic (by simpa using hop),
      decodeBasic_of_lookup (by simpa using hlookup), acOf_wordOf, addrOf_wordOf, hmake]
    rfl
  | extend ac a xop xac b =>
    rw [hlayout] at hrow
    obtain ⟨make, hlookup, hmake⟩ := hrow
    rw [encode_extend hlayout, List.cons_append, List.singleton_append, decode_extend (opOf_wordOf ..),
      decodeExtend_of_lookup (by simpa using hlookup), acOf_wordOf, addrOf_wordOf, acOf_wordOf, addrOf_wordOf, hmake]
    rfl

/-- Settles O20: the row a word is found in is the one the encoder writes, and a word is its fields. -/
theorem encodeOfDecode : Obligations.EncodeOfDecode := by
  intro ws rest i h
  obtain ⟨w, rfl, -, hi⟩ | ⟨w, x, rfl, hop, hi⟩ := decode_ok h
  · obtain ⟨hwf, hwords⟩ := encode_of_decodeBasic hi
    exact ⟨hwf, by rw [hwords]; rfl⟩
  · obtain ⟨hwf, hwords⟩ := encode_of_decodeExtend hop hi
    exact ⟨hwf, by rw [hwords]; rfl⟩

/-- Settles O5: no row of the map has such an opcode, so the fetched words decode to the refusal. -/
theorem wordsOutsideTheMapAreRefused : Obligations.WordsOutsideTheMapAreRefused := by
  refine ⟨fun s w e hrun hw he => ⟨fun hcore hhalt => ?basic, fun x e1 hop hx he1 hrange => ?extend⟩,
    fun s ac xac a a1 hg => ⟨?gBasic, ?gExtend⟩⟩
  case basic =>
    have hop : opOf w ≠ extendOp := fun h => hcore (h ▸ coreOpcode_extendOp)
    rw [step_of_fetchWords hrun (fetchWords_basic hw he hop),
      runWords_of_decode_error (by simpa [isHaltWords, isHalt] using hhalt)
        (decode_basic_notInCore hop (basicRows_lookup_eq_none hcore) [])]
    rfl
  case extend =>
    rw [step_of_fetchWords hrun (fetchWords_extend hw he hop hx he1),
      runWords_of_decode_error rfl (decode_extend_notInCore hop (extendRows_lookup_eq_none hrange) [])]
    rfl
  case gBasic | gExtend =>
    simp only [List.forall_mem_cons, List.not_mem_nil, false_implies, implies_true, and_true]
    and_intros <;> exact ifGfloat_refused hg

/-- Settles O21: the decoder evaluated on the written words. -/
theorem decodesWrittenWords : Obligations.DecodesWrittenWords := by
  unfold Obligations.DecodesWrittenWords
  and_intros <;> rfl

end Sys2Proof.Machine

/-! SUPPORT. The words the statements are written in (R154, R158-R163, R712-R714), as the operations of the model: the
operands and stores of a statement are those of the dispatcher, and a routing group whose operation is Done ends as
`Claims.ends` says. -/

namespace Sys2Proof.Machine

/-! ## Addresses, stores and ends -/

/-- R12: of two joined bit strings the left one holds the high bits. -/
theorem toNat_append_eq_add {m n : Nat} (x : BitVec m) (y : BitVec n) :
    (x ++ y).toNat = x.toNat * 2 ^ n + y.toNat := by
  rw [BitVec.toNat_append, ← Nat.shiftLeft_add_eq_or_of_lt y.isLt, Nat.shiftLeft_eq]

/-- R154: `0,,E` as a number is E. -/
theorem toNat_immWord (e : Half) : (immWord e).toNat = e.toNat :=
  (toNat_append_eq_add 0#18 e).trans (by simp)

theorem immWord_eq_zeroLeft : immWord = Claims.zeroLeft := by
  funext e
  rw [Claims.zeroLeft, ← toNat_immWord, BitVec.ofNat_toNat, BitVec.setWidth_eq]

theorem nextLoc_eq_succAddr (cfg : Params) (e : Half) : nextLoc cfg e = Claims.succAddr cfg e := by
  unfold nextLoc Claims.succAddr loc
  split <;> bv_omega

theorem storeMode_eq_stored (m : Mode) : storeMode m = Claims.stored m := by
  cases m <;> rfl

theorem storeMove_eq_movedTo (m : MoveMode) : storeMove m = Claims.movedTo m := by
  cases m <;> rfl

theorem storePair_eq_toAcs : storePair = Claims.toAcs := rfl

theorem storeSelf_eq_toSelf : storeSelf = Claims.toSelf := rfl

theorem acPair_eq_acs2 : acPair = Claims.acs2 := rfl

theorem storeMemPair_eq (e : Half) (r : Word × Word) (u : State) :
    storeMemPair e r u = (u.writeWord (loc e) r.1).writeWord (Claims.succAddr u.cfg e) r.2 := by
  rw [storeMemPair, nextLoc_eq_succAddr]

theorem retire_eq_ends {α : Type} (s : State) (r : α) (f : Flags) (store : α → State → State) :
    retire s (.done r f) store = Claims.ends s f (store r) := rfl

/-! ## Groups whose operation is Done -/

variable {s : State} {ac : AcNum} {a : AddrSpec} {e : Half} {f : Flags}

theorem arithGroup_ends {m : Mode} {imm : Half → Word} {core : Word → Word → CoreOutcome Word} {b r : Word}
    (he : effAddr s a = .ok e) (hb : Claims.operandIs m imm s e b) (hcore : core (s.ac ac) b = .done r f) :
    arithGroup m imm core ac a s = Claims.ends s f (Claims.stored m ac e r) := by
  have hop : if m = .immediate then b = imm e else s.readWord (loc e) = some b := by cases m <;> exact hb
  rw [arithGroup_ok he hop, hcore, retire_eq_ends, storeMode_eq_stored]

theorem moveGroup_ends {m : MoveMode} {core : Word → CoreOutcome Word} {x r : Word} (he : effAddr s a = .ok e)
    (hx : Claims.moveOperandIs m s ac e x) (hcore : core x = .done r f) :
    moveGroup m core ac a s = Claims.ends s f (Claims.movedTo m ac e r) := by
  have hop : if m = .immediate then x = immWord e else if m = .memory then x = s.ac ac
      else s.readWord (loc e) = some x := by
    rw [immWord_eq_zeroLeft]
    cases m <;> exact hx
  rw [moveGroup_ok he hop, hcore, retire_eq_ends, storeMove_eq_movedTo]

theorem doubleGroup_ends {core : Word × Word → Word × Word → CoreOutcome (Word × Word)} {d r : Word × Word}
    (he : effAddr s a = .ok e) (hd : Claims.pairAt s e d) (hcore : core (Claims.acs2 s ac) d = .done r f) :
    doubleGroup core ac a s = Claims.ends s f (Claims.toAcs ac r) := by
  obtain ⟨hhi, hlo⟩ := hd
  rw [doubleGroup_ok he hhi (nextLoc_eq_succAddr .. ▸ hlo), acPair_eq_acs2, hcore, retire_eq_ends, storePair_eq_toAcs]

theorem pairFromMemGroup_ends {core : Word × Word → CoreOutcome (Word × Word)} {d r : Word × Word}
    (he : effAddr s a = .ok e) (hd : Claims.pairAt s e d) (hcore : core d = .done r f) :
    pairFromMemGroup core ac a s = Claims.ends s f (Claims.toAcs ac r) := by
  obtain ⟨hhi, hlo⟩ := hd
  rw [pairFromMemGroup_ok he hhi (nextLoc_eq_succAddr .. ▸ hlo), hcore, retire_eq_ends, storePair_eq_toAcs]

/-- R162: an AOJ or SOJ row, by its condition and its operation. -/
theorem jumps_of_jumpGroup {row : BasicMaker × (Int → Bool)} {c : Cond} {core : Word → CoreOutcome Word}
    {r : Word → Word} {f : Word → Flags} (hexec : ∀ ac a s, exec (row.1 ac a) s = jumpGroup c core ac a s)
    (hcond : ∀ v, row.2 v = c.holds v) (hcore : ∀ x, core x = .done (r x) (f x)) : Claims.Jumps row r f := by
  intro ac a s e he
  rw [hexec, jumpGroup, withE_ok he, hcore, hcond]
  rfl

/-- R162: an AOS or SOS row, by its condition and its operation. -/
theorem skips_of_skipGroup {row : BasicMaker × (Int → Bool)} {c : Cond} {core : Word → CoreOutcome Word}
    {r : Word → Word} {f : Word → Flags} (hexec : ∀ ac a s, exec (row.1 ac a) s = skipGroup c core ac a s)
    (hcond : ∀ v, row.2 v = c.holds v) (hcore : ∀ x, core x = .done (r x) (f x)) : Claims.Skips row r f := by
  intro ac a s e x he hx
  rw [hexec, skipGroup, withE_ok he, withWord_some hx, hcore, hcond]
  rfl

end Sys2Proof.Machine

/-! SUPPORT. The adder (40_fixed_addsub.md R200-R203): its result is the sum, and its two carries are the truth table over
the signs, for every width and either carry in. -/

namespace Sys2Proof.Machine

variable {n : Nat}

theorem addc_r (a b : BitVec n) (cin : Nat) : (addc n a b cin).r = a + b + BitVec.ofNat n cin := by
  apply BitVec.eq_of_toNat_eq
  simp [addc]

/-- R205: `A + NOT B + 1` is the difference. -/
theorem addc_not_one_r (a b : BitVec n) : (addc n a (~~~b) 1).r = a - b := by
  rw [addc_r, BitVec.add_assoc, ← BitVec.neg_eq_not_add, BitVec.sub_eq_add_neg]

theorem addc_zero_r (a b : BitVec n) : (addc n a b 0).r = a + b := by
  rw [addc_r, BitVec.add_zero]

/-- R200: the carry into the sign bit is the library's carry into bit `n`. -/
theorem addc_c1 (a b : BitVec (n + 1)) (c : Bool) : (addc (n + 1) a b c.toNat).c1 = BitVec.carry n a b c := rfl

/-- R200: the carry out of the sign bit is the majority of the signs and the carry into it. -/
theorem addc_c0 (a b : BitVec (n + 1)) (c : Bool) :
    (addc (n + 1) a b c.toNat).c0 = Bool.atLeastTwo a.msb b.msb (addc (n + 1) a b c.toNat).c1 := by
  have h := BitVec.carry_succ n a b c
  rw [BitVec.carry, Nat.mod_eq_of_lt a.isLt, Nat.mod_eq_of_lt b.isLt] at h
  rw [BitVec.msb_eq_getLsbD_last, BitVec.msb_eq_getLsbD_last, addc_c1]
  exact h

/-- R200: the sign of the result is the sum of the signs and the carry into the sign bit. -/
theorem addc_r_msb (a b : BitVec (n + 1)) (c : Bool) :
    (addc (n + 1) a b c.toNat).r.msb = (a.msb ^^ (b.msb ^^ (addc (n + 1) a b c.toNat).c1)) := by
  have hcin : BitVec.ofNat (n + 1) c.toNat = (BitVec.ofBool c).setWidth (n + 1) := by
    cases c <;> simp
  rw [addc_r, hcin, addc_c1]
  simp only [BitVec.msb_eq_getLsbD_last, Nat.add_sub_cancel]
  exact BitVec.getLsbD_add_add_bool (Nat.lt_succ_self n) a b c

/-- R201, R202: the flags of the two carries are the table of addition over the signs. -/
theorem addFlags_addc (a b : BitVec (n + 1)) (c : Bool) :
    addFlags (addc (n + 1) a b c.toNat).c0 (addc (n + 1) a b c.toNat).c1 =
      Claims.addTable a.msb b.msb (addc (n + 1) a b c.toNat).r.msb := by
  rw [addc_r_msb, addc_c0]
  generalize a.msb = x, b.msb = y, (addc (n + 1) a b c.toNat).c1 = z
  revert x y z
  decide

/-- R203: the table of subtraction is the table of addition with the sign of B inverted. -/
theorem subTable_eq_addTable (a b r : Bool) : Claims.subTable a b r = Claims.addTable a (!b) r := by
  revert a b r
  decide

/-- R202: the flags of an addition. -/
theorem addFlags_addc_zero (a b : BitVec (n + 1)) :
    addFlags (addc (n + 1) a b 0).c0 (addc (n + 1) a b 0).c1 = Claims.addTable a.msb b.msb (a + b).msb := by
  rw [← addc_zero_r]
  exact addFlags_addc a b false

/-- R203: the flags of a subtraction. -/
theorem addFlags_addc_not_one (a b : BitVec (n + 1)) :
    addFlags (addc (n + 1) a (~~~b) 1).c0 (addc (n + 1) a (~~~b) 1).c1 =
      Claims.subTable a.msb b.msb (a - b).msb := by
  have hsign : (!b.msb) = (~~~b).msb := by simp
  rw [subTable_eq_addTable, ← addc_not_one_r, hsign]
  exact addFlags_addc a (~~~b) true

end Sys2Proof.Machine

/-! SUPPORT. The one-word operations of the core (40_fixed_addsub.md R204-R209): what each returns and reports. -/

namespace Sys2Proof.Machine

theorem addCore_eq (a b : Word) : addCore a b = .done (a + b) (Claims.addTable a.msb b.msb (a + b).msb) := by
  rw [addCore, addFlags_addc_zero, addc_zero_r]

theorem subCore_eq (a b : Word) : subCore a b = .done (a - b) (Claims.subTable a.msb b.msb (a - b).msb) := by
  rw [subCore, addFlags_addc_not_one, addc_not_one_r]

theorem negMaxnegFlags_eq (cfg : Params) : negMaxnegFlags cfg = Claims.negateOverflow cfg := by
  unfold negMaxnegFlags Claims.negateOverflow
  cases cfg.negMaxnegCarry1 <;> rfl

theorem negCore_eq (cfg : Params) (x : Word) :
    negCore cfg x = .done (-x)
      (if x = 0 then Claims.fixedFlags true true false
       else if x = 0o400000000000#36 then Claims.negateOverflow cfg else .none) := by
  rw [negCore, addc_not_one_r, BitVec.ofNat_eq_ofNat, BitVec.zero_sub, negMaxnegFlags_eq]
  rfl

theorem mod36_neg_s36 (x : Word) : mod36 (-s36 x) = -x := by
  rw [mod36, s36, BitVec.ofInt_neg, BitVec.ofInt_toInt]

theorem magCore_eq (cfg : Params) (x : Word) :
    magCore cfg x = .done (if x.msb then -x else x)
      (if x = 0o400000000000#36 then Claims.negateOverflow cfg else .none) := by
  unfold magCore
  split
  case isTrue => rw [mod36_neg_s36, negMaxnegFlags_eq]; rfl
  case isFalse hpos =>
    have hne : x ≠ 0o400000000000#36 := by rintro rfl; exact hpos rfl
    rw [if_neg hne]

/-- R161: MOVMI is MOVM of `0,,E`, which is not negative. -/
theorem execMovmi_eq_moveGroup (ac : AcNum) (a : AddrSpec) (s : State) :
    execMovmi ac a s = moveGroup .immediate (magCore s.cfg) ac a s := by
  have hmag (e : Half) : magCore s.cfg (immWord e) = .done (immWord e) .none := by
    have hpos : (immWord e).msb = false := by
      rw [BitVec.msb_eq_decide, toNat_immWord, decide_eq_false_iff_not]
      omega
    simp [magCore, hpos]
  simp only [moveGroup, withMoveOperand, hmag]
  rfl

/-! ## Increments and decrements -/

/-- R208: one more is an addition, whose sign changes at 377777,,777777 and at ONES only. -/
theorem incCore_eq (x : Word) :
    incCore x = .done (x + 1)
      (if x = 0o377777777777#36 then Claims.fixedFlags false true true
       else if x = BitVec.allOnes 36 then Claims.fixedFlags true true false else .none) := by
  have hadd : incCore x = .done (x + 1) (Claims.addTable x.msb false (x + 1).msb) := addCore_eq x 1
  rw [hadd]
  split
  case isTrue h => subst h; rfl
  case isFalse hmax =>
    split
    case isTrue h => subst h; rfl
    case isFalse hones =>
      have hsign : (x + 1).msb = x.msb := by
        simp only [BitVec.msb_eq_decide, decide_eq_decide]
        rw [← BitVec.toNat_inj, BitVec.toNat_allOnes] at hones
        bv_omega
      rw [hsign]
      cases x.msb <;> rfl

/-- R209: one less is a subtraction, whose sign changes at MAXNEG and at zero only. -/
theorem decCore_eq (x : Word) :
    decCore x = .done (x - 1)
      (if x = 0o400000000000#36 then Claims.fixedFlags true false true
       else if x = 0 then .none else Claims.fixedFlags true true false) := by
  have hsub : decCore x = .done (x - 1) (Claims.subTable x.msb false (x - 1).msb) := subCore_eq x 1
  rw [hsub]
  split
  case isTrue h => subst h; rfl
  case isFalse hmin =>
    split
    case isTrue h => subst h; rfl
    case isFalse hzero =>
      have hsign : (x - 1).msb = x.msb := by
        simp only [BitVec.msb_eq_decide, decide_eq_decide]
        bv_omega
      rw [hsign]
      cases x.msb <;> rfl

end Sys2Proof.Machine

/-! SUPPORT. Double words (40_fixed_addsub.md R210-R213): a double word as its 71-bit pattern and its 71-bit integer, and
the three double-word operations of the core. -/

namespace Sys2Proof.Machine

open Claims (value71 writeBack71)

theorem toInt_dval71 (d : Word × Word) : (dval71 d).toInt = value71 d := by
  have happend : (dval71 d).toInt = 2 ^ 35 * d.1.toInt + (d.2.extractLsb' 0 35).toNat := BitVec.toInt_append
  rw [happend, value71, BitVec.extractLsb'_toNat, Nat.shiftRight_zero, Int.mul_comm]

theorem dval71_eq_ofInt (d : Word × Word) : dval71 d = BitVec.ofInt 71 (value71 d) := by
  rw [← toInt_dval71, BitVec.ofInt_toInt]

theorem dval71_msb (d : Word × Word) : (dval71 d).msb = d.1.msb :=
  BitVec.msb_append

theorem split71_msb (t : BitVec 71) : (split71 t).1.msb = t.msb := by
  simp [split71, BitVec.msb]

theorem toNat_split71_fst (t : BitVec 71) : (split71 t).1.toNat = t.toNat / 2 ^ 35 := by
  simp only [split71, BitVec.extractLsb'_toNat, Nat.shiftRight_eq_div_pow]
  omega

theorem toNat_split71_snd (t : BitVec 71) :
    (split71 t).2.toNat = t.toNat / 2 ^ 70 * 2 ^ 35 + t.toNat % 2 ^ 35 := by
  refine (toNat_append_eq_add (t.extractLsb' 70 1) (t.extractLsb' 0 35)).trans ?_
  simp only [BitVec.extractLsb'_toNat, Nat.shiftRight_eq_div_pow]
  omega

/-- R210: the parts of the pattern of an integer are the integer's own, modulo 2^71. -/
theorem split71_ofInt (v : Int) : split71 (BitVec.ofInt 71 v) = writeBack71 v := by
  refine Prod.ext (BitVec.eq_of_toNat_eq ?_) (BitVec.eq_of_toNat_eq ?_)
  · rw [toNat_split71_fst, BitVec.toNat_ofInt, writeBack71, BitVec.toNat_ofNat]
    omega
  · rw [toNat_split71_snd, BitVec.toNat_ofInt, writeBack71, BitVec.toNat_ofNat]
    omega

/-- R213: the low word with its sign bit cleared. -/
theorem zero_append_eq_split71_snd (t : BitVec 71) :
    (0#1 ++ t.extractLsb' 0 35 : BitVec (1 + 35)) = BitVec.ofNat 36 ((split71 t).2.toNat % 2 ^ 35) := by
  apply BitVec.eq_of_toNat_eq
  rw [toNat_append_eq_add, toNat_split71_snd, BitVec.extractLsb'_toNat, BitVec.toNat_ofNat]
  simp only [BitVec.toNat_ofNat, Nat.shiftRight_zero]
  omega

theorem dval71_add (a b : Word × Word) : dval71 a + dval71 b = BitVec.ofInt 71 (value71 a + value71 b) := by
  rw [BitVec.ofInt_add, ← dval71_eq_ofInt, ← dval71_eq_ofInt]

theorem dval71_sub (a b : Word × Word) : dval71 a - dval71 b = BitVec.ofInt 71 (value71 a - value71 b) := by
  rw [Int.sub_eq_add_neg, BitVec.ofInt_add, BitVec.ofInt_neg, ← dval71_eq_ofInt, ← dval71_eq_ofInt,
    BitVec.sub_eq_add_neg]

theorem daddCore_eq (a b : Word × Word) :
    daddCore a b = .done (writeBack71 (value71 a + value71 b))
      (Claims.addTable a.1.msb b.1.msb (writeBack71 (value71 a + value71 b)).1.msb) := by
  rw [daddCore, addFlags_addc_zero, addc_zero_r, dval71_msb, dval71_msb, ← split71_msb, dval71_add, split71_ofInt]

theorem dsubCore_eq (a b : Word × Word) :
    dsubCore a b = .done (writeBack71 (value71 a - value71 b))
      (Claims.subTable a.1.msb b.1.msb (writeBack71 (value71 a - value71 b)).1.msb) := by
  rw [dsubCore, addFlags_addc_not_one, addc_not_one_r, dval71_msb, dval71_msb, ← split71_msb, dval71_sub, split71_ofInt]

/-! ## Negation -/

/-- R213: what DMOVN and DMOVNM store, as O29 writes it. -/
def negated71 (d : Word × Word) : Word × Word :=
  ((writeBack71 (-value71 d)).1, BitVec.ofNat 36 ((writeBack71 (-value71 d)).2.toNat % 2 ^ 35))

/-- R213: what DMOVN and DMOVNM report, as O29 writes it. -/
def negateFlags71 (cfg : Params) (d : Word × Word) : Flags :=
  if cfg.dmovnFlags = .silent then .none
  else if value71 d = 0 then Claims.fixedFlags true true false
  else if value71 d = -2 ^ 70 then Claims.negateOverflow cfg else .none

theorem dval71_eq_zero_iff (d : Word × Word) : dval71 d = 0 ↔ value71 d = 0 := by
  rw [← BitVec.toInt_inj, toInt_dval71]
  rfl

theorem dval71_eq_mostNegative_iff (d : Word × Word) :
    dval71 d = BitVec.ofNat 71 (2 ^ 70) ↔ value71 d = -2 ^ 70 := by
  rw [← BitVec.toInt_inj, toInt_dval71]
  rfl

theorem dnegCore_eq (cfg : Params) (d : Word × Word) :
    dnegCore cfg d = .done (negated71 d) (negateFlags71 cfg d) := by
  have hneg : (addc 71 0 (~~~dval71 d) 1).r = BitVec.ofInt 71 (-value71 d) := by
    rw [addc_not_one_r, BitVec.ofNat_eq_ofNat, BitVec.zero_sub, BitVec.ofInt_neg, dval71_eq_ofInt]
  simp only [dnegCore, hneg, zero_append_eq_split71_snd, dval71_eq_zero_iff, dval71_eq_mostNegative_iff,
    negMaxnegFlags_eq]
  rw [negateFlags71, negated71, ← split71_ofInt]
  cases cfg.dmovnFlags <;> rfl

end Sys2Proof.Machine

/-! PROOFS. The statements of 40_fixed_addsub.md. -/

namespace Sys2Proof.Machine

/-- Settles O22: the adder's result is the sum and its carries are the table of addition, in each mode. -/
theorem addStoresTheSum : Obligations.AddStoresTheSum := by
  simp only [Obligations.AddStoresTheSum, ← immWord_eq_zeroLeft, List.forall_mem_cons, List.not_mem_nil, false_implies,
    implies_true, and_true]
  and_intros <;> exact fun ac a s e b he hb => arithGroup_ends he hb (addCore_eq (s.ac ac) b)

/-- Settles O23: adding NOT B and 1 is the difference, its carries the table of addition with the sign of B inverted. -/
theorem subStoresTheDifference : Obligations.SubStoresTheDifference := by
  simp only [Obligations.SubStoresTheDifference, ← immWord_eq_zeroLeft, List.forall_mem_cons, List.not_mem_nil,
    false_implies, implies_true, and_true]
  and_intros <;> exact fun ac a s e b he hb => arithGroup_ends he hb (subCore_eq (s.ac ac) b)

/-- Settles O24: `0 + NOT x + 1` is the two's complement. -/
theorem movnStoresTheNegative : Obligations.MovnStoresTheNegative := by
  simp only [Obligations.MovnStoresTheNegative, List.forall_mem_cons, List.not_mem_nil, false_implies, implies_true,
    and_true]
  and_intros <;> exact fun ac a s e x he hx => moveGroup_ends he hx (negCore_eq s.cfg x)

/-- Settles O25: MOVMI, which the model writes by itself, is the immediate mode of the same operation. -/
theorem movmStoresTheMagnitude : Obligations.MovmStoresTheMagnitude := by
  simp only [Obligations.MovmStoresTheMagnitude, List.forall_mem_cons, List.not_mem_nil, false_implies, implies_true,
    and_true]
  refine ⟨?_, fun ac a s e x he hx => ?immediate, ?_, ?_⟩
  case immediate => exact (execMovmi_eq_moveGroup ac a s).trans (moveGroup_ends he hx (magCore_eq s.cfg x))
  all_goals exact fun ac a s e x he hx => moveGroup_ends he hx (magCore_eq s.cfg x)

/-- Settles O26: every row is the increment under its own condition. -/
theorem incrementsAddOne : Obligations.IncrementsAddOne := by
  simp only [Obligations.IncrementsAddOne, Claims.aojRows, Claims.aosRows, List.forall_mem_cons, List.not_mem_nil,
    false_implies, implies_true, and_true]
  refine ⟨?jumps, ?skips⟩
  case jumps => and_intros <;> exact jumps_of_jumpGroup (fun _ _ _ => rfl) (fun _ => rfl) incCore_eq
  case skips => and_intros <;> exact skips_of_skipGroup (fun _ _ _ => rfl) (fun _ => rfl) incCore_eq

/-- Settles O27: every row is the decrement under its own condition. -/
theorem decrementsSubtractOne : Obligations.DecrementsSubtractOne := by
  simp only [Obligations.DecrementsSubtractOne, Claims.sojRows, Claims.sosRows, List.forall_mem_cons, List.not_mem_nil,
    false_implies, implies_true, and_true]
  refine ⟨?jumps, ?skips⟩
  case jumps => and_intros <;> exact jumps_of_jumpGroup (fun _ _ _ => rfl) (fun _ => rfl) decCore_eq
  case skips => and_intros <;> exact skips_of_skipGroup (fun _ _ _ => rfl) (fun _ => rfl) decCore_eq

/-- Settles O28: the 71-bit patterns add and subtract as the integers they stand for. -/
theorem doubleWordsAddAndSubtract : Obligations.DoubleWordsAddAndSubtract :=
  fun ac _ s _ d he hd =>
    ⟨doubleGroup_ends he hd (daddCore_eq (Claims.acs2 s ac) d), doubleGroup_ends he hd (dsubCore_eq (Claims.acs2 s ac) d)⟩

/-- Settles O29: the pattern of the negated integer, the sign bit of its low word cleared. -/
theorem dmovnNegatesDoubleWords : Obligations.DmovnNegatesDoubleWords := by
  refine ⟨fun ac a s e d he hd => pairFromMemGroup_ends he hd (dnegCore_eq s.cfg d), fun ac a s e he => ?dmovnm⟩
  case dmovnm =>
    refine (withE_ok he).trans ?_
    rw [acPair_eq_acs2, dnegCore_eq, retire_eq_ends, Claims.ends, storeMemPair_eq]
    rfl

end Sys2Proof.Machine

/-! SUPPORT. Routing of the fixed multiplies and divides (30_encoding.md R160, R163): the groups of two and four results end
as `Claims.ends` says, whether their operation is Done or no-divides, and the rows of a mode table are its four modes. -/

namespace Sys2Proof.Machine

theorem storeModePair_eq_storedPair (m : Mode) : storeModePair m = Claims.storedPair m := by
  cases m <;> rfl

theorem storeQuad_eq_toAcs4 : storeQuad = Claims.toAcs4 := rfl

/-- R252: a no-divide reports DIVF and stores nothing. -/
theorem retire_noDivide_eq_ends {α : Type} (s : State) (store : α → State → State) :
    retire s (.noDivide .divf) store = Claims.ends s Claims.noDivideSet Claims.nothing := rfl

/-- R158: what holds of the four modes holds of every row of a table with one row for each mode. -/
theorem forall_modeRows {P : Mode × BasicMaker → Prop} {basic immediate memory both : BasicMaker}
    (hbasic : P (.basic, basic)) (himmediate : P (.immediate, immediate)) (hmemory : P (.memory, memory))
    (hboth : P (.both, both)) :
    ∀ row ∈ ([(.basic, basic), (.immediate, immediate), (.memory, memory), (.both, both)] : List (Mode × BasicMaker)),
      P row := by
  simp [hbasic, himmediate, hmemory, hboth]

variable {s : State} {ac : AcNum} {a : AddrSpec} {e : Half} {m : Mode} {b : Word}

theorem operand_of_operandIs (hb : Claims.operandIs m Claims.zeroLeft s e b) :
    if m = .immediate then b = immWord e else s.readWord (loc e) = some b := by
  rw [immWord_eq_zeroLeft]
  cases m <;> exact hb

theorem pairGroup_retire {core : Word → Word → CoreOutcome (Word × Word)} (he : effAddr s a = .ok e)
    (hb : Claims.operandIs m Claims.zeroLeft s e b) :
    pairGroup m core ac a s = retire s (core (s.ac ac) b) (Claims.storedPair m ac e) := by
  rw [pairGroup_ok he (operand_of_operandIs hb), storeModePair_eq_storedPair]

theorem divGroup_retire {core : Word × Word → Word → CoreOutcome (Word × Word)} (he : effAddr s a = .ok e)
    (hb : Claims.operandIs m Claims.zeroLeft s e b) :
    divGroup m core ac a s = retire s (core (Claims.acs2 s ac) b) (Claims.storedPair m ac e) := by
  rw [divGroup_ok he (operand_of_operandIs hb), storeModePair_eq_storedPair, acPair_eq_acs2]

/-- R163: an instruction whose ports are the double word at E goes on with it. -/
theorem withE_withPair_of_pairAt {d : Word × Word} {k : Word × Word → Out} (he : effAddr s a = .ok e)
    (hd : Claims.pairAt s e d) : (withE s a fun e => withPair s e k) = k d := by
  obtain ⟨hhi, hlo⟩ := hd
  rw [withE_ok he, withPair_some hhi (nextLoc_eq_succAddr .. ▸ hlo)]

end Sys2Proof.Machine

/-! SUPPORT. The multiplies of the core (41_fixed_muldiv.md R253-R255): each returns the exact product of the signed values,
written back modulo its width. -/

namespace Sys2Proof.Machine

open Claims (value71 writeBack71 writeBack141)

theorem dval_eq_value71 : dval = value71 := rfl

theorem when_ovf (p : Prop) [Decidable p] : Flags.when (decide p) .ovf = if p then Claims.overflowSet else .none := by
  by_cases h : p
  · rw [decide_eq_true h, if_pos h]; rfl
  · rw [decide_eq_false h, if_neg h]; rfl

theorem imulCore_eq (a b : Word) :
    imulCore a b = .done (writeBack71 (a.toInt * b.toInt)).2
      (if a.toInt * b.toInt < -2 ^ 35 ∨ a.toInt * b.toInt ≥ 2 ^ 35 then Claims.overflowSet else .none) := by
  rw [← when_ovf, Bool.decide_or, ← split71_ofInt]
  rfl

theorem mulCore_eq (a b : Word) :
    mulCore a b = .done (writeBack71 (a.toInt * b.toInt))
      (if a.toInt * b.toInt = 2 ^ 70 then Claims.overflowSet else .none) := by
  rw [← when_ovf, ← split71_ofInt]
  rfl

/-- R255: a low word of a quad word is the sign and 35 magnitude bits. -/
theorem sign_append_eq (t : BitVec 141) (i : Nat) :
    (t.extractLsb' 140 1 ++ t.extractLsb' i 35 : BitVec (1 + 35)) =
      BitVec.ofNat 36 (t.toNat / 2 ^ 140 * 2 ^ 35 + t.toNat / 2 ^ i % 2 ^ 35) := by
  have happend := toNat_append_eq_add (t.extractLsb' 140 1) (t.extractLsb' i 35)
  simp only [BitVec.extractLsb'_toNat, Nat.shiftRight_eq_div_pow] at happend
  apply BitVec.eq_of_toNat_eq
  rw [happend, BitVec.toNat_ofNat]
  omega

/-- R255: the parts of the pattern of an integer are the integer's own, modulo 2^141. -/
theorem split141_ofInt (v : Int) : split141 (BitVec.ofInt 141 v) = writeBack141 v := by
  have hhigh (t : BitVec 141) : t.extractLsb' 105 36 = BitVec.ofNat 36 (t.toNat / 2 ^ 105) := by
    rw [BitVec.extractLsb', Nat.shiftRight_eq_div_pow]
  simp only [split141, sign_append_eq, hhigh, BitVec.toNat_ofInt, writeBack141, Nat.pow_zero, Nat.div_one]
  rfl

theorem dmulCore_eq (a b : Word × Word) :
    dmulCore a b = .done (writeBack141 (value71 a * value71 b))
      (if value71 a * value71 b = 2 ^ 140 then Claims.overflowSet else .none) := by
  rw [← when_ovf, ← split141_ofInt]
  rfl

end Sys2Proof.Machine

/-! SUPPORT. The divides of the core (41_fixed_muldiv.md R251, R252, R256-R258): the quotient and remainder of R251 are
unique, so each divide returns them, and it no-divides exactly where its test holds. -/

namespace Sys2Proof.Claims.IsQuotient

/-! ## The quotient and remainder of R251 -/

variable {n d q r : Int}

theorem tdiv_eq (h : IsQuotient n d q r) : n.tdiv d = q := by
  obtain ⟨hn, hr, hsign⟩ := h
  have hd : d ≠ 0 := abs_pos.1 ((abs_nonneg r).trans_lt hr)
  have hsum : r + d * q = n := by rw [hn, Int.add_comm, Int.mul_comm]
  rw [Int.abs_eq_natAbs d, abs_lt] at hr
  rcases le_or_gt n 0 with hneg | hpos
  · exact ((Int.tdiv_tmod_unique' hneg hd).2 ⟨hsum, hr.1, by omega⟩).1
  · exact ((Int.tdiv_tmod_unique hpos.le hd).2 ⟨hsum, by omega, hr.2⟩).1

theorem sub_mul_eq (h : IsQuotient n d q r) : n - q * d = r :=
  sub_eq_of_eq_add' h.1

/-- A divisor of magnitude 1 leaves no remainder. -/
theorem remainder_eq_zero (h : IsQuotient n d q r) (hd : d = 1 ∨ d = -1) : r = 0 := by
  obtain ⟨-, hr, -⟩ := h
  rcases hd with rfl | rfl <;> simpa using hr

end Sys2Proof.Claims.IsQuotient

namespace Sys2Proof.Machine

open Claims (IsQuotient value71 writeBack71)

/-! ## IDIV -/

theorem idivCore_noDivide {cfg : Params} {a b : Word}
    (h : b.toInt = 0 ∨ cfg.idivMaxneg = .strict ∧ a.toInt = -2 ^ 35 ∧ (b.toInt = 1 ∨ b.toInt = -1)) :
    idivCore cfg a b = .noDivide .divf := by
  rcases h with hzero | ⟨hstrict, hmaxneg⟩
  · exact if_pos hzero
  · have hnonzero : b.toInt ≠ 0 := by omega
    simp [idivCore, s36, hnonzero, hmaxneg, hstrict]

/-- R256: under Permit the zero stored for MAXNEG by 1 or -1 is the remainder. -/
theorem idivCore_done {cfg : Params} {a b : Word} {q r : Int}
    (h : ¬ (b.toInt = 0 ∨ cfg.idivMaxneg = .strict ∧ a.toInt = -2 ^ 35 ∧ (b.toInt = 1 ∨ b.toInt = -1)))
    (hq : IsQuotient a.toInt b.toInt q r) :
    idivCore cfg a b = .done (BitVec.ofInt 36 q, BitVec.ofInt 36 r) .none := by
  rw [not_or] at h
  obtain ⟨hzero, hstrict⟩ := h
  simp only [idivCore, s36, mod36, hq.tdiv_eq, hq.sub_mul_eq, if_neg hzero]
  split
  · next hmaxneg =>
    cases hpolicy : cfg.idivMaxneg with
    | strict => exact absurd ⟨hpolicy, hmaxneg⟩ hstrict
    | permit => rw [hq.remainder_eq_zero hmaxneg.2]; rfl
  · rfl

/-! ## DIV and DDIV -/

theorem divideFails_iff (n d : Int) (k : Nat) : divideFails n d k = true ↔ d = 0 ∨ |n| ≥ |d| * 2 ^ k := by
  simp [divideFails]

theorem divCore_noDivide {a : Word × Word} {b : Word} (h : b.toInt = 0 ∨ |value71 a| ≥ |b.toInt| * 2 ^ 35) :
    divCore a b = .noDivide .divf :=
  if_pos ((divideFails_iff ..).2 h)

theorem divCore_done {a : Word × Word} {b : Word} {q r : Int}
    (h : ¬ (b.toInt = 0 ∨ |value71 a| ≥ |b.toInt| * 2 ^ 35)) (hq : IsQuotient (value71 a) b.toInt q r) :
    divCore a b = .done (BitVec.ofInt 36 q, BitVec.ofInt 36 r) .none := by
  refine (if_neg (mt (divideFails_iff ..).1 h)).trans ?_
  rw [dval_eq_value71, s36, mod36, mod36, hq.tdiv_eq, hq.sub_mul_eq]

theorem qval_acQuad (s : State) (ac : AcNum) : qval (acQuad s ac) = Claims.value141 s ac := by
  have hac : ac + 2 + 1 = ac + 3 := BitVec.add_assoc ac 2 1
  simp only [qval, acQuad, acPair, hac]
  rfl

theorem ddivCore_noDivide {a : (Word × Word) × (Word × Word)} {b : Word × Word}
    (h : value71 b = 0 ∨ |qval a| ≥ |value71 b| * 2 ^ 70) : ddivCore a b = .noDivide .divf :=
  if_pos ((divideFails_iff ..).2 h)

theorem ddivCore_done {a : (Word × Word) × (Word × Word)} {b : Word × Word} {q r : Int}
    (h : ¬ (value71 b = 0 ∨ |qval a| ≥ |value71 b| * 2 ^ 70)) (hq : IsQuotient (qval a) (value71 b) q r) :
    ddivCore a b = .done (writeBack71 q, writeBack71 r) .none := by
  refine (if_neg (mt (divideFails_iff ..).1 h)).trans ?_
  rw [dval_eq_value71, hq.tdiv_eq, hq.sub_mul_eq, split71_ofInt, split71_ofInt]

end Sys2Proof.Machine

/-! PROOFS. The statements of 41_fixed_muldiv.md. -/

namespace Sys2Proof.Machine

/-- Settles O30: the low word of the 71-bit product is its sign and its low 35 bits, in each mode. -/
theorem imulStoresTheProduct : Obligations.ImulStoresTheProduct := by
  refine forall_modeRows ?_ ?_ ?_ ?_ <;>
    exact fun ac a s e b he hb => arithGroup_ends he (immWord_eq_zeroLeft ▸ hb) (imulCore_eq (s.ac ac) b)

/-- Settles O31: the whole 71-bit product, in each mode. -/
theorem mulStoresTheDoubleProduct : Obligations.MulStoresTheDoubleProduct := by
  refine forall_modeRows ?_ ?_ ?_ ?_ <;>
    exact fun ac a s e b he hb => (pairGroup_retire he hb).trans (by rw [mulCore_eq, retire_eq_ends])

/-- Settles O32: the 141-bit product of the two double words. -/
theorem dmulStoresTheQuadProduct : Obligations.DmulStoresTheQuadProduct :=
  fun ac _ s _ d he hd => (withE_withPair_of_pairAt he hd).trans (by
    rw [acPair_eq_acs2, dmulCore_eq, retire_eq_ends, storeQuad_eq_toAcs4])

/-- Settles O33: the quotient and remainder of R251 are the ones IDIV computes, in each mode and under either policy. -/
theorem idivStoresQuotientAndRemainder : Obligations.IdivStoresQuotientAndRemainder := by
  refine forall_modeRows ?_ ?_ ?_ ?_ <;>
    exact fun ac a s e b he hb =>
      ⟨fun h => (pairGroup_retire he hb).trans (by rw [idivCore_noDivide h, retire_noDivide_eq_ends]),
       fun h q r hq => (pairGroup_retire he hb).trans (by rw [idivCore_done h hq, retire_eq_ends])⟩

/-- Settles O34: the model's test is the statement's, and past it the quotient and remainder are unique, in each mode. -/
theorem divStoresQuotientAndRemainder : Obligations.DivStoresQuotientAndRemainder := by
  refine forall_modeRows ?_ ?_ ?_ ?_ <;>
    exact fun ac a s e b he hb =>
      ⟨fun h => (divGroup_retire he hb).trans (by rw [divCore_noDivide h, retire_noDivide_eq_ends]),
       fun h q r hq => (divGroup_retire he hb).trans (by rw [divCore_done h hq, retire_eq_ends])⟩

/-- Settles O35: as for DIV, on the 141-bit dividend of AC to AC+3. -/
theorem ddivStoresQuotientAndRemainder : Obligations.DdivStoresQuotientAndRemainder := by
  intro ac a s e w he hd
  rw [← qval_acQuad]
  exact ⟨fun h => (withE_withPair_of_pairAt he hd).trans (by rw [ddivCore_noDivide h, retire_noDivide_eq_ends]),
    fun h q r hq => (withE_withPair_of_pairAt he hd).trans (by
      rw [ddivCore_done h hq, retire_eq_ends, storeQuad_eq_toAcs4])⟩

end Sys2Proof.Machine

/-! SUPPORT. Booleans (42_logic_shift.md R300-R316): the function each number of R153 table 5 names, bit by bit, and the row
of each of the 64 instructions. -/

namespace Sys2Proof.Machine

open Claims (IsBoolean booleanTable)

/-- R301-R316: the function of each number of R153 table 5. -/
def booleanFn : Nat → Word → Word → Word
  | 0 => fnSetz
  | 1 => fnAnd
  | 2 => fnAndca
  | 3 => fnSetm
  | 4 => fnAndcm
  | 5 => fnSeta
  | 6 => fnXor
  | 7 => fnIor
  | 8 => fnAndcb
  | 9 => fnEqv
  | 10 => fnSetca
  | 11 => fnOrca
  | 12 => fnSetcm
  | 13 => fnOrcm
  | 14 => fnOrcb
  | _ => fnSeto

/-- R153 table 5: each row runs the function of its number in its mode. -/
theorem exec_booleanTable : ∀ row ∈ booleanTable, ∀ ac a s,
    exec (row.2.2 ac a) s = arithGroup row.2.1 immWord (boolCore (booleanFn row.1)) ac a s := by
  refine List.forall_iff_forall_mem.1 ?_
  and_intros <;> exact fun _ _ _ => rfl

theorem booleanTable_lt : ∀ row ∈ booleanTable, row.1 < 16 := by decide

/-- R300: the truth table of each function on one bit of its operands is the four bits of its number. -/
theorem isBoolean_booleanFn {f : Nat} (hf : f < 16) (a b : Word) : IsBoolean f a b (booleanFn f a b) := by
  intro i hi
  interval_cases f
  all_goals
    simp only [booleanFn, fnSetz, fnAnd, fnAndca, fnSetm, fnAndcm, fnSeta, fnXor, fnIor, fnAndcb, fnEqv, fnSetca, fnOrca,
      fnSetcm, fnOrcm, fnOrcb, fnSeto, ones, BitVec.getLsbD_and, BitVec.getLsbD_or, BitVec.getLsbD_xor,
      BitVec.getLsbD_not, BitVec.getLsbD_allOnes, BitVec.ofNat_eq_ofNat, BitVec.getLsbD_zero, hi, decide_true,
      Bool.true_and]
    generalize a.getLsbD i = x, b.getLsbD i = y
    revert x y
    decide

end Sys2Proof.Machine

/-! SUPPORT. Shift counts (30_encoding.md R155, R163; 42_logic_shift.md R320): the count of E, and the groups that take it
end as `Claims.ends` says. -/

namespace Sys2Proof.Machine

theorem countOf_eq_shiftCount (e : Half) : countOf e = Claims.shiftCount e := by
  have hpattern := toNat_append_eq_add (e.extractLsb' 17 1) (e.extractLsb' 0 8)
  simp only [BitVec.extractLsb'_toNat, Nat.shiftRight_eq_div_pow] at hpattern
  rw [countOf, Claims.shiftCount, BitVec.toInt_eq_toNat_cond, hpattern, BitVec.getLsbD, Nat.testBit_eq_decide_div_mod_eq]
  simp only [decide_eq_true_eq]
  omega

variable {s : State} {ac : AcNum} {a : AddrSpec} {e : Half} {f : Flags}

theorem countGroup_ends {core : Word → Int → CoreOutcome Word} {r : Word} (he : effAddr s a = .ok e)
    (hcore : core (s.ac ac) (Claims.shiftCount e) = .done r f) :
    countGroup core ac a s = Claims.ends s f (Claims.toAc ac r) := by
  rw [countGroup_ok he, countOf_eq_shiftCount, hcore, retire_eq_ends]
  rfl

theorem countPairGroup_ends {core : Word × Word → Int → CoreOutcome (Word × Word)} {r : Word × Word}
    (he : effAddr s a = .ok e) (hcore : core (Claims.acs2 s ac) (Claims.shiftCount e) = .done r f) :
    countPairGroup core ac a s = Claims.ends s f (Claims.toAcs ac r) := by
  rw [countPairGroup_ok he, countOf_eq_shiftCount, acPair_eq_acs2, hcore, retire_eq_ends, storePair_eq_toAcs]

end Sys2Proof.Machine

/-! SUPPORT. Arithmetic shifts of the core (42_logic_shift.md R321, R324): a left shift by its bits and its flag, a right
shift by its quotient. -/

namespace Sys2Proof.Machine

open Claims (value71 writeBack71)

/-- R324: a sign bit before the low 70 bits of an integer is the pattern of their sum. -/
theorem sign_append_ofInt70 (x : Word) (v : Int) :
    (x.extractLsb' 35 1 ++ BitVec.ofInt 70 v : BitVec (1 + 70)) =
      BitVec.ofInt 71 ((if x.msb then 2 ^ 70 else 0) + v % 2 ^ 70) := by
  apply BitVec.eq_of_toNat_eq
  rw [toNat_append_eq_add, BitVec.toNat_ofInt, BitVec.toNat_ofInt, BitVec.extractLsb'_toNat, Nat.shiftRight_eq_div_pow,
    BitVec.msb_eq_decide]
  simp only [decide_eq_true_eq]
  split <;> omega

/-- R321: the word of a left shift by `k`: the sign of `x`, then the low 35 bits of its value times 2^k. -/
def ashLeft (x : Word) (k : Nat) : Word := (x.extractLsb' 35 1 ++ BitVec.ofInt 35 (x.toInt * 2 ^ k) : BitVec (1 + 35))

theorem ashCore_left {x : Word} {c : Int} (hc : 0 ≤ c) :
    ashCore x c = .done (ashLeft x c.toNat)
      (if x.toInt * 2 ^ c.toNat < -2 ^ 35 ∨ x.toInt * 2 ^ c.toNat ≥ 2 ^ 35 then Claims.overflowSet else .none) := by
  rw [← when_ovf, Bool.decide_or]
  exact if_pos hc

theorem ashCore_right {x : Word} {c : Int} (hc : c < 0) : ashCore x c = .done (x.sshiftRight (-c).toNat) .none := by
  rw [BitVec.sshiftRight, Int.shiftRight_eq_div_pow]
  exact if_neg (by omega)

theorem ofInt_mul_two_pow (w : Nat) (v : Int) (k : Nat) : BitVec.ofInt w (v * 2 ^ k) = BitVec.ofInt w v <<< k := by
  have hpow : BitVec.ofInt w (2 ^ k) = BitVec.twoPow w k := by
    apply BitVec.eq_of_toNat_eq
    rw [BitVec.toNat_twoPow]
    exact congrArg BitVec.toNat (BitVec.ofInt_natCast w (2 ^ k))
  rw [BitVec.ofInt_mul, hpow, BitVec.mul_twoPow_eq_shiftLeft]

theorem ashLeft_sign (x : Word) (k : Nat) : (ashLeft x k).getLsbD 35 = x.getLsbD 35 := by
  rw [ashLeft, BitVec.getLsbD_append]
  simp

theorem ashLeft_magnitude (x : Word) (k : Nat) {i : Nat} (hi : i < 35) :
    (ashLeft x k).getLsbD i = (decide (k ≤ i) && x.getLsbD (i - k)) := by
  have hbit : (BitVec.ofInt 35 x.toInt).getLsbD (i - k) = x.getLsbD (i - k) :=
    (BitVec.getLsbD_signExtend x).trans (by simp [show i - k < 35 by omega, show i - k < 36 by omega])
  rw [ashLeft, BitVec.getLsbD_append, if_pos hi, ofInt_mul_two_pow, BitVec.getLsbD_shiftLeft, hbit]
  simp only [hi, decide_true, Bool.true_and, ← decide_not, not_lt]

theorem ashcCore_zero (d : Word × Word) : ashcCore d 0 = .done d .none := rfl

theorem ashcCore_left {d : Word × Word} {c : Int} (hc : 0 < c) :
    ashcCore d c = .done (writeBack71 ((if d.1.msb then 2 ^ 70 else 0) + (value71 d * 2 ^ c.toNat) % 2 ^ 70))
      (if value71 d * 2 ^ c.toNat < -2 ^ 70 ∨ value71 d * 2 ^ c.toNat ≥ 2 ^ 70 then Claims.overflowSet else .none) := by
  rw [← when_ovf, Bool.decide_or, ← split71_ofInt, ← sign_append_ofInt70, ashcCore, if_neg hc.ne', if_pos hc]
  rfl

theorem ashcCore_right {d : Word × Word} {c : Int} (hc : c < 0) :
    ashcCore d c = .done (writeBack71 ⌊(value71 d : ℚ) / 2 ^ (-c).toNat⌋) .none := by
  have hfloor : ⌊(value71 d : ℚ) / 2 ^ (-c).toNat⌋ = value71 d / 2 ^ (-c).toNat := by
    exact_mod_cast Rat.floor_intCast_div_natCast (value71 d) (2 ^ (-c).toNat)
  rw [hfloor, ← split71_ofInt, ashcCore, if_neg hc.ne, if_neg hc.not_gt]
  rfl

end Sys2Proof.Machine

/-! SUPPORT. Logical shifts and rotates of the core (42_logic_shift.md R322, R323, R325, R326), bit by bit at any width: LSH
and ROT are the ones of 36 bits, LSHC and ROTC of 72. -/

namespace Sys2Proof.Machine

variable {w : Nat}

theorem ofNat_mul_two_pow (x : BitVec w) (k : Nat) : BitVec.ofNat w (x.toNat * 2 ^ k) = x <<< k := by
  rw [← Nat.shiftLeft_eq]
  rfl

theorem ofNat_div_two_pow (x : BitVec w) (k : Nat) : BitVec.ofNat w (x.toNat / 2 ^ k) = x >>> k := by
  rw [← Nat.shiftRight_eq_div_pow, ← BitVec.toNat_ushiftRight, BitVec.ofNat_toNat, BitVec.setWidth_eq]

/-- R323, R326: the logical shift by a count of either sign. -/
def logicalShift (x : BitVec w) (c : Int) : BitVec w := if 0 ≤ c then x <<< c.toNat else x >>> (-c).toNat

theorem getLsbD_logicalShift (x : BitVec w) (c : Int) {i : Nat} (hi : i < w) :
    (logicalShift x c).getLsbD i = (decide (c ≤ i) && x.getLsbD ((i : Int) - c).toNat) := by
  unfold logicalShift
  split
  · next hc =>
    rw [BitVec.getLsbD_shiftLeft, show i - c.toNat = ((i : Int) - c).toNat by omega]
    simp only [hi, decide_true, Bool.true_and, ← decide_not, show ¬ i < c.toNat ↔ c ≤ i by omega]
  · next hc =>
    rw [BitVec.getLsbD_ushiftRight, show (-c).toNat + i = ((i : Int) - c).toNat by omega]
    simp [show c ≤ i by omega]

/-- R322, R325: the rotate by a count of either sign. -/
def rotate (x : BitVec w) (c : Int) : BitVec w := x.rotateLeft (c % w).toNat

theorem toNat_emod_lt (c : Int) (hw : 0 < w) : (c % w).toNat < w :=
  (Int.toNat_lt (Int.emod_nonneg c (by omega))).2 (Int.emod_lt_of_pos c (by omega))

theorem toNat_add_emod (i : Nat) (c : Int) (hw : 0 < w) : (((i : Int) + c) % w).toNat = (i + (c % w).toNat) % w := by
  obtain ⟨k, hk⟩ := Int.eq_ofNat_of_zero_le (Int.emod_nonneg c (b := w) (by omega))
  rw [← Int.add_emod_emod, hk]
  rfl

theorem rotate_eq (x : BitVec w) (c : Int) (hw : 0 < w) :
    rotate x c = x <<< (c % w).toNat ||| x >>> (w - (c % w).toNat) := by
  rw [rotate, BitVec.rotateLeft_def, Nat.mod_eq_of_lt (toNat_emod_lt c hw)]

/-- A bit either moves up by the count or, past the top, comes in at the bottom. -/
theorem getLsbD_rotate (x : BitVec w) (c : Int) {i : Nat} (hi : i < w) :
    (rotate x c).getLsbD (((i : Int) + c) % w).toNat = x.getLsbD i := by
  have hw : 0 < w := by omega
  have hk := toNat_emod_lt c hw
  rw [rotate, BitVec.getLsbD_rotateLeft, toNat_add_emod i c hw, Nat.mod_eq_of_lt hk]
  generalize (c % w).toNat = k at hk ⊢
  by_cases hup : i + k < w
  · rw [Nat.mod_eq_of_lt hup]
    simp [hup]
  · have hwrap : (i + k) % w = i + k - w := by rw [Nat.mod_eq_sub_mod (by omega), Nat.mod_eq_of_lt (by omega)]
    rw [hwrap, decide_eq_true (by omega), cond_true, show w - k + (i + k - w) = i by omega]

theorem lshCore_eq (x : Word) (c : Int) : lshCore x c = .done (logicalShift x c) .none := by
  rw [lshCore, logicalShift, ofNat_mul_two_pow, ofNat_div_two_pow]
  split <;> rfl

theorem rotCore_eq (x : Word) (c : Int) : rotCore x c = .done (rotate x c) .none := by
  rw [rotate_eq x c (by decide), ← ofNat_mul_two_pow, ← ofNat_div_two_pow]
  rfl

/-! ## 72 bits -/

/-- R325, R326: AC and AC+1 as one bit string. -/
def bits72 (d : Word × Word) : BitVec 72 := d.1 ++ d.2

theorem join72_eq_toNat (d : Word × Word) : join72 d = (bits72 d).toNat :=
  (toNat_append_eq_add d.1 d.2).symm

theorem bits72_split72 (z : BitVec 72) : bits72 (split72 z.toNat) = z := by
  apply BitVec.eq_of_toNat_eq
  rw [bits72, toNat_append_eq_add, split72, BitVec.toNat_ofNat, BitVec.toNat_ofNat]
  omega

theorem getLsbD_split72 (z : BitVec 72) (i : Nat) :
    ((split72 z.toNat).1 ++ (split72 z.toNat).2 : BitVec 72).getLsbD i = z.getLsbD i :=
  congrArg (BitVec.getLsbD · i) (bits72_split72 z)

theorem lshcCore_eq (d : Word × Word) (c : Int) :
    lshcCore d c = .done (split72 (logicalShift (bits72 d) c).toNat) .none := by
  rw [lshcCore, logicalShift, join72_eq_toNat]
  split
  · rw [BitVec.toNat_shiftLeft, Nat.shiftLeft_eq]
  · rw [BitVec.toNat_ushiftRight, Nat.shiftRight_eq_div_pow]

theorem rotcCore_eq (d : Word × Word) (c : Int) :
    rotcCore d c = .done (split72 (rotate (bits72 d) c).toNat) .none := by
  rw [rotate_eq _ c (by decide), BitVec.toNat_or, BitVec.toNat_shiftLeft, BitVec.toNat_ushiftRight, Nat.shiftLeft_eq,
    Nat.shiftRight_eq_div_pow, ← join72_eq_toNat]
  rfl

end Sys2Proof.Machine

/-! PROOFS. The statements of 42_logic_shift.md. -/

namespace Sys2Proof.Machine

/-- Settles O36: the row's function in its mode, on each bit the truth table of its number. -/
theorem booleanFunctionsBitByBit : Obligations.BooleanFunctionsBitByBit :=
  fun row hrow _ _ _ _ _ he hb =>
    ⟨_, isBoolean_booleanFn (booleanTable_lt row hrow) _ _,
      (exec_booleanTable row hrow _ _ _).trans (arithGroup_ends he (immWord_eq_zeroLeft ▸ hb) rfl)⟩

/-- Settles O37: a left shift by its bits and its flag, a right shift as the arithmetic shift of the word. -/
theorem ashShiftsTheMagnitude : Obligations.AshShiftsTheMagnitude :=
  fun ac _ s e he =>
    ⟨fun hleft => ⟨ashLeft (s.ac ac) (Claims.shiftCount e).toNat, ashLeft_sign .., fun _ hi => ashLeft_magnitude _ _ hi,
      countGroup_ends he (ashCore_left hleft)⟩,
     fun hright => countGroup_ends he (ashCore_right hright)⟩

/-- Settles O38: the three cases of the count. -/
theorem ashcShiftsTheDoubleMagnitude : Obligations.AshcShiftsTheDoubleMagnitude :=
  fun ac _ s _ he =>
    ⟨fun hzero => countPairGroup_ends he (hzero ▸ ashcCore_zero (Claims.acs2 s ac)),
     fun hleft => countPairGroup_ends he (ashcCore_left hleft),
     fun hright => countPairGroup_ends he (ashcCore_right hright)⟩

/-- Settles O39: the rotate bit by bit, of 36 bits and of 72. -/
theorem rotatesTurnTheBits : Obligations.RotatesTurnTheBits :=
  fun ac _ s _ he =>
    ⟨⟨_, fun _ hi => getLsbD_rotate (s.ac ac) _ hi, countGroup_ends he (rotCore_eq ..)⟩,
     ⟨_, _, fun _ hi => (getLsbD_split72 ..).trans (getLsbD_rotate (bits72 (Claims.acs2 s ac)) _ hi),
      countPairGroup_ends he (rotcCore_eq ..)⟩⟩

/-- Settles O40: the logical shift bit by bit, of 36 bits and of 72. -/
theorem logicalShiftsMoveTheBits : Obligations.LogicalShiftsMoveTheBits :=
  fun ac _ s _ he =>
    ⟨⟨_, fun _ hi => getLsbD_logicalShift (s.ac ac) _ hi, countGroup_ends he (lshCore_eq ..)⟩,
     ⟨_, _, fun _ hi => (getLsbD_split72 ..).trans (getLsbD_logicalShift (bits72 (Claims.acs2 s ac)) _ hi),
      countPairGroup_ends he (lshcCore_eq ..)⟩⟩

end Sys2Proof.Machine

/-! SUPPORT. Unpack and pack (43_normalize_round.md R355, R365): unpack as the sign, the exponent field and the fraction
field of the words, and pack as the words with those fields. -/

namespace Sys2Proof.Machine

/-! ## The fields of a floating operand -/

/-- R355: ef, the exponent field as it is stored. -/
def Fmt.expField (φ : Fmt) (w : Word × Word) : BitVec φ.ew := w.1.extractLsb' φ.k φ.ew

/-- R355: fr, the fraction bits of word 0 followed by those of word 1. -/
def Fmt.fracField (φ : Fmt) (w : Word × Word) : BitVec (φ.k + φ.k1) := w.1.extractLsb' 0 φ.k ++ w.2.extractLsb' 0 φ.k1

theorem Fmt.toNat_expField (φ : Fmt) (w : Word × Word) :
    (φ.expField w).toNat = w.1.toNat / 2 ^ φ.k % 2 ^ φ.ew := by
  rw [expField, BitVec.extractLsb'_toNat, Nat.shiftRight_eq_div_pow]

theorem Fmt.toNat_fracField (φ : Fmt) (w : Word × Word) :
    (φ.fracField w).toNat = w.1.toNat % 2 ^ φ.k * 2 ^ φ.k1 + w.2.toNat % 2 ^ φ.k1 := by
  rw [fracField, toNat_append_eq_add, BitVec.extractLsb'_toNat, BitVec.extractLsb'_toNat, Nat.shiftRight_zero,
    Nat.shiftRight_zero]

/-- The fraction of an F operand is that of its first word. -/
theorem toNat_fracField_f (w : Word × Word) : (Fmt.f.fracField w).toNat = (w.1.extractLsb' 0 27).toNat := by
  rw [Fmt.toNat_fracField, BitVec.extractLsb'_toNat, Nat.shiftRight_zero]
  simp only [Fmt.k, Fmt.k1]
  omega

/-- R355, with the sign read from the stored bit. -/
theorem unpack_eq_fields (φ : Fmt) (w : Word × Word) :
    unpack φ w = if w.1.getLsbD 35
      then (2 ^ φ.ew - 1 - ((φ.expField w).toNat : Int), ((φ.fracField w).toNat : Int) - 2 ^ φ.n)
      else (((φ.expField w).toNat : Int), ((φ.fracField w).toNat : Int)) := by
  rw [φ.toNat_expField, φ.toNat_fracField]
  rfl

/-! ## The words with given fields -/

/-- The words with the given sign, exponent field and fraction field, and with bit 35 of word 1 clear. -/
def Fmt.assemble (φ : Fmt) (neg : Bool) (ef fr : Nat) : Word × Word :=
  (BitVec.ofNat 36 (neg.toNat * 2 ^ 35 + (ef * 2 ^ φ.k + fr / 2 ^ φ.k1)), BitVec.ofNat 36 (fr % 2 ^ φ.k1))

section
variable {φ : Fmt} {neg : Bool} {ef fr : Nat}

/-- The exponent field and the fraction bits of word 0 fill it up to its sign. -/
theorem assembled_lt (hef : ef < 2 ^ φ.ew) (hfr : fr < 2 ^ φ.n) : ef * 2 ^ φ.k + fr / 2 ^ φ.k1 < 2 ^ 35 := by
  cases φ <;> simp only [Fmt.ew, Fmt.n, Fmt.k, Fmt.k1] at * <;> omega

theorem toNat_assemble_fst (hef : ef < 2 ^ φ.ew) (hfr : fr < 2 ^ φ.n) :
    (φ.assemble neg ef fr).1.toNat = neg.toNat * 2 ^ 35 + (ef * 2 ^ φ.k + fr / 2 ^ φ.k1) := by
  have hneg := neg.toNat_le
  have hrest := assembled_lt hef hfr
  rw [Fmt.assemble, BitVec.toNat_ofNat, Nat.mod_eq_of_lt (by omega)]

theorem assemble_fst_sign (hef : ef < 2 ^ φ.ew) (hfr : fr < 2 ^ φ.n) : (φ.assemble neg ef fr).1.getLsbD 35 = neg := by
  have hrest := assembled_lt hef hfr
  rw [← BitVec.testBit_toNat, toNat_assemble_fst hef hfr, Nat.mul_comm, Nat.testBit_two_pow_mul_add _ hrest]
  cases neg <;> rfl

theorem toNat_assemble_snd : (φ.assemble neg ef fr).2.toNat = fr % 2 ^ φ.k1 := by
  rw [Fmt.assemble, BitVec.toNat_ofNat]
  cases φ <;> simp only [Fmt.k1] <;> omega

/-- R354: the second word's sign bit is clear. -/
theorem assemble_snd_sign : (φ.assemble neg ef fr).2.getLsbD 35 = false := by
  rw [← BitVec.testBit_toNat, toNat_assemble_snd]
  apply Nat.testBit_lt_two_pow
  cases φ <;> simp only [Fmt.k1] <;> omega

theorem expField_assemble (hef : ef < 2 ^ φ.ew) (hfr : fr < 2 ^ φ.n) :
    (φ.expField (φ.assemble neg ef fr)).toNat = ef := by
  rw [φ.toNat_expField, toNat_assemble_fst hef hfr]
  cases φ <;> simp only [Fmt.ew, Fmt.n, Fmt.k, Fmt.k1] at * <;> omega

theorem fracField_assemble (hef : ef < 2 ^ φ.ew) (hfr : fr < 2 ^ φ.n) :
    (φ.fracField (φ.assemble neg ef fr)).toNat = fr := by
  rw [φ.toNat_fracField, toNat_assemble_fst hef hfr, toNat_assemble_snd]
  cases φ <;> simp only [Fmt.ew, Fmt.n, Fmt.k, Fmt.k1] at * <;> omega

/-- Unpacking words of given fields. -/
theorem unpack_assemble (hef : ef < 2 ^ φ.ew) (hfr : fr < 2 ^ φ.n) :
    unpack φ (φ.assemble neg ef fr) =
      if neg then (2 ^ φ.ew - 1 - (ef : Int), (fr : Int) - 2 ^ φ.n) else ((ef : Int), (fr : Int)) := by
  rw [unpack_eq_fields, assemble_fst_sign hef hfr, expField_assemble hef hfr, fracField_assemble hef hfr]

end

/-! ## Pack -/

/-- R365: under a negative fraction the sign is set and the exponent field complemented. -/
theorem pack_eq_assemble (φ : Fmt) (e f : Int) :
    pack φ e f = φ.assemble (decide (f < 0))
      (if f < 0 then 2 ^ φ.ew - 1 - (e % 2 ^ φ.ew).toNat else (e % 2 ^ φ.ew).toNat) (f % 2 ^ φ.n).toNat := by
  by_cases hf : f < 0 <;> simp [pack, Fmt.assemble, hf, Nat.add_assoc]

/-- Unpack inverts pack for every fraction that fits and every exponent that does not wrap. -/
theorem unpack_pack {φ : Fmt} {e f : Int} (he0 : 0 ≤ e) (he : e < 2 ^ φ.ew) (hlo : -2 ^ φ.n ≤ f) (hhi : f < 2 ^ φ.n) :
    unpack φ (pack φ e f) = (e, f) := by
  have hfr : ((f % 2 ^ φ.n).toNat : Int) = f % 2 ^ φ.n := Int.toNat_of_nonneg (Int.emod_nonneg _ (by positivity))
  have hlt : (f % 2 ^ φ.n).toNat < 2 ^ φ.n := by zify; rw [hfr]; exact Int.emod_lt_of_pos _ (by positivity)
  obtain ⟨e, rfl⟩ := Int.eq_ofNat_of_zero_le he0
  have hew : e < 2 ^ φ.ew := by exact_mod_cast he
  rw [pack_eq_assemble, Int.emod_eq_of_lt he0 he, Int.toNat_natCast]
  by_cases hf : f < 0
  · have hcompl : ((2 ^ φ.ew - 1 - e : Nat) : Int) = 2 ^ φ.ew - 1 - e := by
      rw [Nat.cast_sub (by omega), Nat.cast_pred (by positivity), Nat.cast_pow, Nat.cast_ofNat]
    rw [if_pos hf, unpack_assemble (by omega) hlt, if_pos (decide_eq_true hf), hfr, ← Int.add_emod_right,
      Int.emod_eq_of_lt (by omega) (by omega), hcompl, sub_sub_cancel, add_sub_cancel_right]
  · rw [if_neg hf, unpack_assemble hew hlt, if_neg (by simpa using hf), hfr, Int.emod_eq_of_lt (by omega) hhi]

/-- R350: Emax is the largest value of the exponent field. -/
theorem Fmt.emax_lt (φ : Fmt) : (φ.emax : Int) < 2 ^ φ.ew := by
  cases φ <;> decide

end Sys2Proof.Machine

/-! PROOFS. The statements of 43_normalize_round.md. -/

namespace Sys2Proof.Machine

/-- Settles O41: the fields of the three formats. -/
theorem unpackReadsTheFields : Obligations.UnpackReadsTheFields := by
  refine fun w0 w1 => ⟨?f, unpack_eq_fields .d (w0, w1), unpack_eq_fields .g (w0, w1)⟩
  case f =>
    rw [← toNat_fracField_f (w0, w1)]
    exact unpack_eq_fields .f (w0, w1)

/-- Settles O42: a normalized fraction fits, whatever its sign, and an exponent up to Emax does not wrap. -/
theorem packedResultsUnpack : Obligations.PackedResultsUnpack := by
  intro φ e f he0 he hnorm
  have hpow : (0 : Int) < 2 ^ (φ.n - 1) := by positivity
  have hpow' : (0 : Int) < 2 ^ φ.n := by positivity
  refine ⟨unpack_pack he0 (he.trans_lt φ.emax_lt) (by omega) (by omega), ?sign⟩
  case sign => rw [pack_eq_assemble, assemble_snd_sign]

end Sys2Proof.Machine

/-! SUPPORT. The exact results of the floating rules over the rationals (43_normalize_round.md R356, R360-R367): the sign of
an exact result, its truncation toward zero, FRES as `Claims.IsResult` states it, and the results that are exact. -/

namespace Sys2Proof.Machine

/-! ## Exact results as rationals -/

@[simp] theorem Exact.add_den (x y : Exact) : (x.add y).den = x.den * y.den := rfl
@[simp] theorem Exact.sub_den (x y : Exact) : (x.sub y).den = x.den * y.den := rfl
@[simp] theorem Exact.mul_den (x y : Exact) : (x.mul y).den = x.den * y.den := rfl
@[simp] theorem Exact.div_den (x y : Exact) : (x.div y).den = x.den * y.num.natAbs := rfl
@[simp] theorem Exact.scale_den (x : Exact) (c : Int) : (x.scale c).den = x.den := rfl
@[simp] theorem Exact.ofInt_den (n : Int) : (Exact.ofInt n).den = 1 := rfl

theorem Exact.toRat_lt_zero {x : Exact} (hd : x.den ≠ 0) : x.toRat < 0 ↔ x.num < 0 := by
  have hden : (0 : ℚ) < x.den := by exact_mod_cast Nat.pos_of_ne_zero hd
  have hexp : (0 : ℚ) < 2 ^ x.exp := by positivity
  rw [Exact.toRat, ← not_le, mul_nonneg_iff_of_pos_right hexp, le_div_iff₀ hden, zero_mul, Int.cast_nonneg_iff, not_le]

/-- R14: `trunc` is the truncation toward zero. -/
theorem Exact.trunc_eq_truncated {x : Exact} (hd : x.den ≠ 0) : x.trunc = Claims.truncated x.toRat := by
  have hsign : 0 ≤ x.toRat ↔ 0 ≤ x.num := by rw [← not_lt, ← not_lt, toRat_lt_zero hd]
  simp only [Exact.trunc, Claims.truncated, hsign, Exact.floorScaled_eq, Exact.toRat_neg, zpow_zero, mul_one,
    Int.floor_neg, neg_neg]

/-- R414: `roundHalfUp` is the floor of the value plus one half. -/
theorem Exact.roundHalfUp_eq_roundedHalfUp (x : Exact) : x.roundHalfUp = Claims.roundedHalfUp x.toRat := by
  rw [Exact.roundHalfUp, Exact.roundScaled_eq, zpow_zero, mul_one, Claims.roundedHalfUp]

/-! ## FRES -/

/-- R360-R362: the exponent and fraction are those of the normalized value, its floor taken once. -/
theorem isRounded_roundTo (φ : Fmt) {x : Exact} (rnd : Bool) (hn : x.num ≠ 0) (hd : x.den ≠ 0) :
    Claims.IsRounded φ x.toRat rnd (roundTo φ x rnd).1 (roundTo φ x rnd).2 := by
  obtain ⟨hlo, hhi⟩ := normExponent_bracket φ x hn hd
  refine ⟨normExponent φ x, hlo, hhi, ?_⟩
  simp only [roundTo, scaled_eq_floor, renormalize]
  split_ifs <;> exact ⟨rfl, rfl⟩

/-- R365: assembled words are the packed words of the exponent and fraction that their fields hold. -/
theorem isPacked_assemble {φ : Fmt} {e f : Int} {ef fr : Nat} (hef : ef < 2 ^ φ.ew) (hfr : fr < 2 ^ φ.n)
    (he : (ef : Int) = if f < 0 then 2 ^ φ.ew - 1 - e % 2 ^ φ.ew else e % 2 ^ φ.ew) (hf : (fr : Int) = f % 2 ^ φ.n) :
    Claims.IsPacked φ e f (φ.assemble (decide (f < 0)) ef fr) := by
  have hsnd : (φ.assemble (decide (f < 0)) ef fr).2.toNat < 2 ^ φ.k1 :=
    toNat_assemble_snd ▸ Nat.mod_lt fr (Nat.two_pow_pos φ.k1)
  refine ⟨?sign, ?exponent, ?fraction, hsnd⟩
  case sign => rw [BitVec.msb_eq_getLsbD_last, assemble_fst_sign hef hfr]
  case exponent => rw [← φ.toNat_expField, expField_assemble hef hfr, he]
  case fraction =>
    have hfield := fracField_assemble (neg := decide (f < 0)) hef hfr
    rw [φ.toNat_fracField, Nat.mod_eq_of_lt hsnd] at hfield
    rw [hfield, hf]

/-- A remainder by a power of two, as a natural number of that many bits. -/
theorem toNat_emod_two_pow (v : Int) (n : Nat) : ((v % 2 ^ n).toNat : Int) = v % 2 ^ n ∧ (v % 2 ^ n).toNat < 2 ^ n := by
  have hnonneg : 0 ≤ v % 2 ^ n := Int.emod_nonneg v (by positivity)
  have hlt : v % 2 ^ n < 2 ^ n := Int.emod_lt_of_pos v (by positivity)
  exact ⟨Int.toNat_of_nonneg hnonneg, by zify; rwa [Int.toNat_of_nonneg hnonneg]⟩

/-- R365: the packed words have the fields of their exponent and fraction. -/
theorem isPacked_pack (φ : Fmt) (e f : Int) : Claims.IsPacked φ e f (pack φ e f) := by
  obtain ⟨hfr, hfrlt⟩ := toNat_emod_two_pow f φ.n
  obtain ⟨hef, heflt⟩ := toNat_emod_two_pow e φ.ew
  rw [pack_eq_assemble]
  refine isPacked_assemble ?lt hfrlt ?field hfr
  case lt => split_ifs <;> omega
  case field =>
    split_ifs
    · rw [Nat.cast_sub (Nat.le_sub_one_of_lt heflt), Nat.cast_pred (Nat.two_pow_pos φ.ew), hef, Nat.cast_pow,
        Nat.cast_ofNat]
    · exact hef

theorem fres_of_num_eq_zero {φ : Fmt} {x : Exact} {rnd : Bool} (hn : x.num = 0) : fres φ x rnd = ((0, 0), .none) :=
  if_pos hn

theorem fres_of_num_ne_zero {φ : Fmt} {x : Exact} {rnd : Bool} (hn : x.num ≠ 0) :
    fres φ x rnd = (pack φ (roundTo φ x rnd).1 (roundTo φ x rnd).2, rangeFlags φ.emax (roundTo φ x rnd).1) :=
  if_neg hn

/-- R364-R367: FRES of an exact result is FRES of the rational it denotes. -/
theorem isResult_fres (φ : Fmt) {x : Exact} (rnd : Bool) (hd : x.den ≠ 0) :
    Claims.IsResult φ x.toRat rnd (fres φ x rnd).1 (fres φ x rnd).2 := by
  have hzero := Exact.toRat_eq_zero hd
  by_cases hn : x.num = 0
  · rw [fres_of_num_eq_zero hn, Claims.IsResult, if_pos (hzero.mpr hn)]
    exact ⟨rfl, rfl⟩
  · rw [fres_of_num_ne_zero hn, Claims.IsResult, if_neg (hn ∘ hzero.mp)]
    exact ⟨_, _, isRounded_roundTo φ rnd hn hd, isPacked_pack φ _ _, rfl⟩

/-- An F result has no second word. -/
theorem pack_f_snd (e f : Int) : (pack .f e f).2 = 0 := by
  simp [pack, Fmt.k1, Nat.mod_one]

theorem isPacked_pack_f (e f : Int) : Claims.IsPacked .f e f ((pack .f e f).1, 0) :=
  pack_f_snd e f ▸ isPacked_pack .f e f

theorem fres_f_snd (x : Exact) (rnd : Bool) : (fres .f x rnd).1.2 = 0 := by
  by_cases hn : x.num = 0
  · rw [fres_of_num_eq_zero hn]
  · rw [fres_of_num_ne_zero hn, pack_f_snd]

theorem isResultF_fres {x : Exact} (rnd : Bool) (hd : x.den ≠ 0) :
    Claims.IsResultF x.toRat rnd (fres .f x rnd).1.1 (fres .f x rnd).2 := by
  rw [Claims.IsResultF, ← fres_f_snd x rnd]
  exact isResult_fres .f rnd hd

/-! ## Final exponents and exact fractions -/

/-- R361, R362: renormalizing raises the exponent by one or leaves it. -/
theorem roundTo_exponent (φ : Fmt) (x : Exact) (rnd : Bool) :
    (roundTo φ x rnd).1 = normExponent φ x ∨ (roundTo φ x rnd).1 = normExponent φ x + 1 := by
  simp only [roundTo, renormalize]
  split_ifs <;> simp

/-- R361, R362: a value whose scaled fraction is an integer is neither rounded nor truncated nor renormalized. -/
theorem roundTo_of_integral {φ : Fmt} {x : Exact} {f : Int} (rnd : Bool) (hn : x.num ≠ 0) (hd : x.den ≠ 0)
    (hf : x.toRat * 2 ^ ((φ.n : Int) + φ.bias - normExponent φ x) = f) :
    roundTo φ x rnd = (normExponent φ x, f) ∧ |f| < 2 ^ φ.n := by
  have hlt : |f| < 2 ^ φ.n := by
    have hbracket := (normExponent_bracket φ x hn hd).2
    rw [hf] at hbracket
    exact_mod_cast hbracket
  have hfloor : ⌊(f : ℚ) + (if rnd then 1 / 2 else 0)⌋ = f := by
    rw [Int.floor_eq_iff]
    split_ifs <;> constructor <;> linarith
  have hrange := abs_lt.mp hlt
  refine ⟨?_, hlt⟩
  simp only [roundTo, scaled_eq_floor, hf, hfloor, renormalize]
  rw [if_neg (by omega), if_neg (by omega)]

/-- R364-R367: FRES of a value whose scaled fraction is an integer, and whose exponent fits, is words that denote it. -/
theorem fres_of_integral {φ : Fmt} {x : Exact} {f : Int} (rnd : Bool) (hn : x.num ≠ 0) (hd : x.den ≠ 0)
    (hf : x.toRat * 2 ^ ((φ.n : Int) + φ.bias - normExponent φ x) = f) (hlo : 0 ≤ normExponent φ x)
    (hhi : normExponent φ x < 2 ^ φ.ew) :
    (unpack φ (fres φ x rnd).1).1 = normExponent φ x ∧ Claims.value φ (fres φ x rnd).1 = x.toRat := by
  obtain ⟨hround, hlt⟩ := roundTo_of_integral rnd hn hd hf
  have hrange := abs_lt.mp hlt
  have hunpack : unpack φ (fres φ x rnd).1 = (normExponent φ x, f) := by
    rw [fres_of_num_ne_zero hn, hround]
    exact unpack_pack hlo hhi hrange.1.le hrange.2
  rw [Claims.value, hunpack, ← hf, mul_assoc, ← zpow_add₀ two_ne_zero]
  exact ⟨rfl, by ring_nf; simp⟩

/-- R360: the logarithm of an integer of at most k bits. -/
theorem log2_ofInt_bounds {v : Int} {k : Nat} (hv : v ≠ 0) (hk : |v| < 2 ^ k) :
    0 ≤ (Exact.ofInt v).log2 ∧ (Exact.ofInt v).log2 < k := by
  obtain ⟨hlo, hhi⟩ := (Exact.ofInt v).log2_spec hv one_ne_zero
  rw [Exact.toRat_ofInt] at hlo hhi
  have hone : (1 : ℚ) ≤ |(v : ℚ)| := by exact_mod_cast Int.one_le_abs hv
  have hkq : |(v : ℚ)| < 2 ^ (k : Int) := by rw [zpow_natCast]; exact_mod_cast hk
  have hpos : (2 : ℚ) ^ (0 : Int) < 2 ^ ((Exact.ofInt v).log2 + 1) := by rw [zpow_zero]; exact hone.trans_lt hhi
  exact ⟨Int.lt_add_one_iff.mp ((zpow_lt_zpow_iff_right₀ one_lt_two).mp hpos),
    (zpow_lt_zpow_iff_right₀ one_lt_two).mp (hlo.trans_lt hkq)⟩

end Sys2Proof.Machine

/-! SUPPORT. Routing of the single floating instructions (30_encoding.md R154, R158, R159, R163; 70_reset_and_hazards.md R712,
R714): their groups end as `Claims.ends` says, whether their operation is Done, no-divides or stores nothing. -/

namespace Sys2Proof.Machine

/-- R154: the immediate word of the floating modes. -/
theorem immFloat_eq_zeroRight : immFloat = Claims.zeroRight := by
  funext e
  have hnat : (immFloat e).toNat = e.toNat * 2 ^ 18 := (toNat_append_eq_add e 0#18).trans (by simp)
  rw [Claims.zeroRight, ← hnat, BitVec.ofNat_toNat, BitVec.setWidth_eq]

/-- R714: FDIVF is reported and nothing is stored. -/
theorem retire_floatNoDivide_eq_ends {α : Type} (s : State) (store : α → State → State) :
    retire s (.noDivide .fdivf) store = Claims.ends s Claims.floatNoDivideSet Claims.nothing := rfl

/-- R714: OVF is reported and nothing is stored. -/
theorem retire_noStore_eq_ends {α : Type} (s : State) (store : α → State → State) :
    retire s (.noStore .ovf) store = Claims.ends s Claims.overflowSet Claims.nothing := rfl

variable {s : State} {ac : AcNum} {a : AddrSpec} {e : Half} {m : Mode} {b : Word}

theorem arithGroup_floatNoDivide {imm : Half → Word} {core : Word → Word → CoreOutcome Word} (he : effAddr s a = .ok e)
    (hb : Claims.operandIs m imm s e b) (hcore : core (s.ac ac) b = .noDivide .fdivf) :
    arithGroup m imm core ac a s = Claims.ends s Claims.floatNoDivideSet Claims.nothing := by
  have hop : if m = .immediate then b = imm e else s.readWord (loc e) = some b := by cases m <;> exact hb
  rw [arithGroup_ok he hop, hcore, retire_floatNoDivide_eq_ends]

/-- R159: a mode of the arithmetic group stores FRES of `q` where its operation is Done with FRES of `q`. -/
theorem arithGroup_ends_result {imm : Half → Word} {core : Word → Word → CoreOutcome Word} {q : ℚ} {rnd : Bool}
    (he : effAddr s a = .ok e) (hb : Claims.operandIs m imm s e b)
    (hcore : ∃ w fl, Claims.IsResultF q rnd w fl ∧ core (s.ac ac) b = .done w fl) :
    ∃ w fl, Claims.IsResultF q rnd w fl ∧
      arithGroup m imm core ac a s = Claims.ends s fl (Claims.stored m ac e w) := by
  obtain ⟨w, fl, hresult, hdone⟩ := hcore
  exact ⟨w, fl, hresult, arithGroup_ends he hb hdone⟩

theorem unaryGroup_ends {core : Word → CoreOutcome Word} {r : Word} {f : Flags} (he : effAddr s a = .ok e)
    (hb : s.readWord (loc e) = some b) (hcore : core b = .done r f) :
    unaryGroup core ac a s = Claims.ends s f (Claims.toAc ac r) := by
  rw [unaryGroup_ok he hb, hcore, retire_eq_ends]
  rfl

theorem unaryGroup_noStore {core : Word → CoreOutcome Word} (he : effAddr s a = .ok e)
    (hb : s.readWord (loc e) = some b) (hcore : core b = .noStore .ovf) :
    unaryGroup core ac a s = Claims.ends s Claims.overflowSet Claims.nothing := by
  rw [unaryGroup_ok he hb, hcore, retire_noStore_eq_ends]

end Sys2Proof.Machine

/-! SUPPORT. The single floating operations of the core (44_float_single.md R400-R416): what each returns and reports, by
the rationals and the fractions its operands denote. -/

namespace Sys2Proof.Machine

open Claims (valueF IsResultF)

/-! ## Addition, subtraction, multiplication and division -/

@[simp] theorem valF_den (w : Word) : (valF w).den = 1 := rfl

/-- R356: an F operand denotes the same rational in the model and in the statements. -/
theorem valF_toRat (w : Word) : (valF w).toRat = valueF w := val_toRat .f (w, 0)

/-- R367: the outcome of an exact result that denotes `q` is Done with FRES of `q`. -/
theorem resF_isResultF {x : Exact} {q : ℚ} {rnd : Bool} (hd : x.den ≠ 0) (hq : x.toRat = q) :
    ∃ w fl, IsResultF q rnd w fl ∧ resF x rnd = .done w fl :=
  ⟨_, _, hq ▸ isResultF_fres rnd hd, rfl⟩

theorem fadCore_isResultF (rnd : Bool) (a b : Word) :
    ∃ w fl, IsResultF (valueF a + valueF b) rnd w fl ∧ fadCore rnd a b = .done w fl :=
  resF_isResultF (by simp) (by rw [Exact.toRat_add _ _ (by simp) (by simp), valF_toRat, valF_toRat])

theorem fsbCore_isResultF (rnd : Bool) (a b : Word) :
    ∃ w fl, IsResultF (valueF a - valueF b) rnd w fl ∧ fsbCore rnd a b = .done w fl :=
  resF_isResultF (by simp) (by rw [Exact.toRat_sub _ _ (by simp) (by simp), valF_toRat, valF_toRat])

theorem toRat_mul_valF (a b : Word) : ((valF a).mul (valF b)).toRat = valueF a * valueF b := by
  rw [Exact.toRat_mul, valF_toRat, valF_toRat]

/-- R406, R368: every negative product is in the quirk band under FIDELITY = Hardware. -/
theorem fmpCore_quirk {cfg : Params} {a b : Word} (hquirk : cfg.fidelity = .hardware ∧ valueF a * valueF b < 0) :
    fmpCore cfg a b = .done (Config.qFmp cfg.cpuModel a b).1 (Config.qFmp cfg.cpuModel a b).2 := by
  rw [← toRat_mul_valF, Exact.toRat_lt_zero (by simp)] at hquirk
  exact if_pos hquirk

theorem fmpCore_isResultF {cfg : Params} {a b : Word} (hquirk : ¬ (cfg.fidelity = .hardware ∧ valueF a * valueF b < 0)) :
    ∃ w fl, IsResultF (valueF a * valueF b) false w fl ∧ fmpCore cfg a b = .done w fl := by
  rw [← toRat_mul_valF, Exact.toRat_lt_zero (by simp)] at hquirk
  rw [fmpCore, if_neg hquirk]
  exact resF_isResultF (by simp) (toRat_mul_valF a b)

theorem fmprCore_isResultF (a b : Word) :
    ∃ w fl, IsResultF (valueF a * valueF b) true w fl ∧ fmprCore a b = .done w fl :=
  resF_isResultF (by simp) (toRat_mul_valF a b)

/-- R408, R450: the test of the model is the one of the statements. -/
theorem floatDivideFails_iff {φ : Fmt} {a b : Word × Word} :
    floatDivideFails φ a b = true ↔ Claims.FloatNoDivide φ a b := by
  simp [floatDivideFails, Claims.FloatNoDivide]

section divide
variable {cfg : Params} {rnd : Bool} {a b : Word}

theorem fdvCore_noDivide (hfails : Claims.FloatNoDivide .f (a, 0) (b, 0)) : fdvCore cfg rnd a b = .noDivide .fdivf :=
  if_pos (floatDivideFails_iff.mpr hfails)

/-- R408: a divide that does not fail has a divisor other than zero, so its exact quotient is the quotient of the values. -/
theorem toRat_div_valF (hok : ¬ Claims.FloatNoDivide .f (a, 0) (b, 0)) :
    ((valF a).div (valF b)).den ≠ 0 ∧ ((valF a).div (valF b)).toRat = valueF a / valueF b := by
  have hb : (valF b).num ≠ 0 := fun hzero => hok (.inl hzero)
  exact ⟨by simpa using hb, by rw [Exact.toRat_div _ _ hb, valF_toRat, valF_toRat]⟩

/-- R409, R410, R368: every negative quotient is in the quirk band under FIDELITY = Hardware. -/
theorem fdvCore_quirk (hok : ¬ Claims.FloatNoDivide .f (a, 0) (b, 0))
    (hquirk : cfg.fidelity = .hardware ∧ valueF a / valueF b < 0) :
    fdvCore cfg rnd a b = .done (Config.qFdv cfg.cpuModel a b rnd).1 (Config.qFdv cfg.cpuModel a b rnd).2 := by
  obtain ⟨hden, hrat⟩ := toRat_div_valF hok
  rw [← hrat, Exact.toRat_lt_zero hden] at hquirk
  rw [fdvCore, if_neg (floatDivideFails_iff.not.mpr hok), if_pos hquirk, quirk]

theorem fdvCore_isResultF (hok : ¬ Claims.FloatNoDivide .f (a, 0) (b, 0))
    (hquirk : ¬ (cfg.fidelity = .hardware ∧ valueF a / valueF b < 0)) :
    ∃ w fl, IsResultF (valueF a / valueF b) rnd w fl ∧ fdvCore cfg rnd a b = .done w fl := by
  obtain ⟨hden, hrat⟩ := toRat_div_valF hok
  rw [← hrat, Exact.toRat_lt_zero hden] at hquirk
  rw [fdvCore, if_neg (floatDivideFails_iff.not.mpr hok), if_neg hquirk]
  exact resF_isResultF hden hrat

end divide

/-! ## UFA -/

/-- R411: an operand scaled by the exponent `e` is its fraction, shifted by the difference of the exponents. -/
theorem valueF_mul_two_zpow (w : Word) (e : Int) :
    valueF w * 2 ^ (155 - e) = (unpack .f (w, 0)).2 * 2 ^ ((unpack .f (w, 0)).1 - e) := by
  rw [valueF, Claims.value, mul_assoc, ← zpow_add₀ two_ne_zero]
  congr 2
  simp only [Fmt.bias, Fmt.n]
  omega

/-- R411: the larger of the exponents. -/
def ufaAlign (a b : Word) : Int := max (unpack .f (a, 0)).1 (unpack .f (b, 0)).1

/-- R411: the floor of the sum of the fractions, aligned to the larger exponent. -/
def ufaSum (a b : Word) : Int :=
  ⌊((unpack .f (a, 0)).2 : ℚ) * 2 ^ ((unpack .f (a, 0)).1 - ufaAlign a b) +
    ((unpack .f (b, 0)).2 : ℚ) * 2 ^ ((unpack .f (b, 0)).1 - ufaAlign a b)⌋

/-- R411: the fraction of the result, halved where the sum is outside the fraction's range. -/
def ufaFraction (a b : Word) : Int :=
  if ufaSum a b ≥ 2 ^ 27 ∨ ufaSum a b < -2 ^ 27 then ⌊(ufaSum a b : ℚ) / 2⌋ else ufaSum a b

/-- R411: the exponent of the result. -/
def ufaExponent (a b : Word) : Int :=
  if ufaSum a b ≥ 2 ^ 27 ∨ ufaSum a b < -2 ^ 27 then ufaAlign a b + 1 else ufaAlign a b

theorem floorScaled_add_valF (a b : Word) :
    ((valF a).add (valF b)).floorScaled (155 - ufaAlign a b) = ufaSum a b := by
  rw [Exact.floorScaled_eq, Exact.toRat_add _ _ (by simp) (by simp), valF_toRat, valF_toRat, add_mul,
    valueF_mul_two_zpow, valueF_mul_two_zpow, ufaSum]

theorem floor_intCast_div_two (v : Int) : ⌊(v : ℚ) / 2⌋ = v / 2 :=
  Rat.floor_intCast_div_natCast v 2

/-- R411: UFA, on the aligned fractions. -/
theorem ufaCore_eq (a b : Word) :
    ufaCore a b = if ufaFraction a b = 0 then .done 0 .none
      else .done (pack .f (ufaExponent a b) (ufaFraction a b)).1
        (if ufaExponent a b > 255 then Claims.floatOverflowSet else .none) := by
  have hsum := floorScaled_add_valF a b
  simp only [ufaAlign] at hsum
  simp only [ufaCore, hsum, ufaFraction, ufaExponent, floor_intCast_div_two, Bool.or_eq_true, decide_eq_true_eq,
    Flags.when]
  rfl

/-! ## Conversions -/

section fix
variable {b : Word}

theorem fixCore_noStore (hbig : (unpack .f (b, 0)).1 > 0o243) : fixCore b = .noStore .ovf := if_pos hbig

theorem fixrCore_noStore (hbig : (unpack .f (b, 0)).1 > 0o243) : fixrCore b = .noStore .ovf := if_pos hbig

theorem fixCore_done (hfits : (unpack .f (b, 0)).1 ≤ 0o243) :
    fixCore b = .done (BitVec.ofInt 36 (Claims.truncated (valueF b))) .none := by
  rw [fixCore, if_neg hfits.not_gt, Exact.trunc_eq_truncated (by simp), valF_toRat, mod36]

theorem fixrCore_done (hfits : (unpack .f (b, 0)).1 ≤ 0o243) :
    fixrCore b = .done (BitVec.ofInt 36 (Claims.roundedHalfUp (valueF b))) .none := by
  rw [fixrCore, if_neg hfits.not_gt, Exact.roundHalfUp_eq_roundedHalfUp, valF_toRat, mod36]

end fix

/-- R415: the word FLTR stores. -/
def fltrWord (b : Word) : Word := (fres .f (.ofInt b.toInt) true).1.1

/-- A word's signed value has at most 35 bits of magnitude, or is -2^35. -/
theorem abs_toInt_lt (b : Word) : |b.toInt| < 2 ^ 36 := by
  have hlo := b.le_toInt
  have hhi := b.toInt_lt
  rw [abs_lt]
  omega

/-- R415: the exponent of an integer is in range, so no flag is reported. -/
theorem fltrCore_eq (b : Word) : fltrCore b = .done (fltrWord b) .none := by
  suffices hflags : (fres .f (.ofInt b.toInt) true).2 = .none by rw [fltrCore, s36, resF, hflags, fltrWord]
  by_cases hb : b.toInt = 0
  · rw [fres_of_num_eq_zero hb]
  · have hlog := log2_ofInt_bounds hb (abs_toInt_lt b)
    have hexp := roundTo_exponent .f (.ofInt b.toInt) true
    simp only [normExponent, Fmt.bias] at hexp
    rw [fres_of_num_ne_zero hb, rangeFlags, Fmt.emax, if_neg (by omega), if_neg (by omega)]

theorem fltrWord_isResultF (b : Word) : IsResultF (b.toInt : ℚ) true (fltrWord b) .none := by
  have hresult := isResultF_fres (x := .ofInt b.toInt) true one_ne_zero
  have hdone := fltrCore_eq b
  rw [fltrCore, s36, resF, CoreOutcome.done.injEq] at hdone
  rwa [Exact.toRat_ofInt, hdone.2] at hresult

/-- R415: an integer below 2^27 in magnitude fills the fraction exactly. -/
theorem fltrWord_exact {b : Word} (hb : |b.toInt| < 2 ^ 27) :
    (unpack .f (fltrWord b, 0)).1 ≤ 0o243 ∧ valueF (fltrWord b) = b.toInt := by
  have hword : (fltrWord b, (0 : Word)) = (fres .f (.ofInt b.toInt) true).1 := Prod.ext rfl (fres_f_snd _ _).symm
  rw [valueF, hword]
  by_cases hzero : b.toInt = 0
  · have hunpack : unpack .f (0, 0) = (0, 0) := by decide
    rw [fres_of_num_eq_zero hzero, Claims.value, hunpack, hzero]
    simp
  · obtain ⟨hlo, hhi⟩ := log2_ofInt_bounds hzero hb
    have hexp : normExponent .f (.ofInt b.toInt) = (Exact.ofInt b.toInt).log2 + 129 := by
      simp only [normExponent, Fmt.bias]
      omega
    have hscaled : (Exact.ofInt b.toInt).toRat * 2 ^ ((Fmt.f.n : Int) + Fmt.f.bias - normExponent .f (.ofInt b.toInt)) =
        (b.toInt * 2 ^ (26 - (Exact.ofInt b.toInt).log2).toNat : Int) := by
      rw [Exact.toRat_ofInt, hexp, Int.cast_mul, Int.cast_pow, ← zpow_natCast, Int.toNat_of_nonneg (by omega)]
      congr 2
      simp only [Fmt.bias, Fmt.n]
      omega
    have hew : Fmt.f.ew = 8 := rfl
    obtain ⟨hunpack, hvalue⟩ := fres_of_integral true hzero one_ne_zero hscaled (by omega) (by rw [hew]; omega)
    rw [hunpack, hvalue, Exact.toRat_ofInt]
    exact ⟨by omega, rfl⟩

@[simp] theorem truncated_intCast (v : Int) : Claims.truncated v = v := by
  simp [Claims.truncated]

@[simp] theorem roundedHalfUp_intCast (v : Int) : Claims.roundedHalfUp v = v := by
  rw [Claims.roundedHalfUp, Int.floor_eq_iff]
  constructor <;> linarith

/-- R413, R414: FIX and FIXR invert FLTR below 2^27. -/
theorem fixCore_fltrWord {b : Word} (hb : |b.toInt| < 2 ^ 27) : fixCore (fltrWord b) = .done b .none := by
  obtain ⟨hfits, hvalue⟩ := fltrWord_exact hb
  rw [fixCore_done hfits, hvalue, truncated_intCast, BitVec.ofInt_toInt]

theorem fixrCore_fltrWord {b : Word} (hb : |b.toInt| < 2 ^ 27) : fixrCore (fltrWord b) = .done b .none := by
  obtain ⟨hfits, hvalue⟩ := fltrWord_exact hb
  rw [fixrCore_done hfits, hvalue, roundedHalfUp_intCast, BitVec.ofInt_toInt]

theorem fscCore_isResultF (a : Word) (c : Int) :
    ∃ w fl, IsResultF (valueF a * 2 ^ c) false w fl ∧ fscCore a c = .done w fl :=
  resF_isResultF (by simp) (by rw [Exact.toRat_scale, valF_toRat])

end Sys2Proof.Machine

/-! PROOFS. The statements of 44_float_single.md. -/

namespace Sys2Proof.Machine

/-- Settles O43: each form ends with FRES of the exact sum or difference. -/
theorem floatAddAndSubtractAreExact : Obligations.FloatAddAndSubtractAreExact := by
  simp only [Obligations.FloatAddAndSubtractAreExact, ← immFloat_eq_zeroRight, List.forall_mem_cons, List.not_mem_nil,
    false_implies, implies_true, and_true]
  refine ⟨?fad, ?fadr, ?fsb, ?fsbr⟩
  case fad | fadr => and_intros <;> exact fun ac a s e b he hb => arithGroup_ends_result he hb (fadCore_isResultF ..)
  case fsb | fsbr => and_intros <;> exact fun ac a s e b he hb => arithGroup_ends_result he hb (fsbCore_isResultF ..)

/-- Settles O44: FMP by its quirk band, FMPR without one. -/
theorem floatMultiplyIsExact : Obligations.FloatMultiplyIsExact := by
  simp only [Obligations.FloatMultiplyIsExact, ← immFloat_eq_zeroRight, List.forall_mem_cons, List.not_mem_nil,
    false_implies, implies_true, and_true]
  refine ⟨?fmp, ?fmpr⟩
  case fmp =>
    and_intros <;> exact fun ac a s e b he hb =>
      ⟨fun hquirk => arithGroup_ends he hb (fmpCore_quirk hquirk),
       fun hquirk => arithGroup_ends_result he hb (fmpCore_isResultF hquirk)⟩
  case fmpr => and_intros <;> exact fun ac a s e b he hb => arithGroup_ends_result he hb (fmprCore_isResultF ..)

/-- Settles O45: the divide by its no-divide test and its quirk band, truncated and rounded alike. -/
theorem floatDivideIsExact : Obligations.FloatDivideIsExact := by
  simp only [Obligations.FloatDivideIsExact, ← immFloat_eq_zeroRight, List.forall_mem_cons, List.not_mem_nil,
    false_implies, implies_true, and_true]
  and_intros <;> exact fun ac a s e b he hb =>
    ⟨fun hfails => arithGroup_floatNoDivide he hb (fdvCore_noDivide hfails),
     fun hok hquirk => arithGroup_ends he hb (fdvCore_quirk hok hquirk),
     fun hok hquirk => arithGroup_ends_result he hb (fdvCore_isResultF hok hquirk)⟩

/-- Settles O46: the aligned sum, its zero, and the words of its exponent and fraction. -/
theorem ufaAddsWithoutNormalizing : Obligations.UfaAddsWithoutNormalizing := by
  intro ac a s e b he hb
  have hends {r : Word} {f : Flags} (hcore : ufaCore (s.ac ac) b = .done r f) :
      exec (.ufa ac a) s = Claims.ends s f (Claims.toAc (ac + 1) r) := by
    refine (withE_ok he).trans ((withWord_some hb).trans ?_)
    rw [hcore, retire_eq_ends]
    rfl
  refine ⟨fun hzero => hends ?zero, fun hne => ⟨_, isPacked_pack_f _ _, hends ?nonzero⟩⟩
  case zero => exact (ufaCore_eq ..).trans (if_pos hzero)
  case nonzero => exact (ufaCore_eq ..).trans (if_neg hne)

/-- Settles O47: the two conversions on either side of the largest exponent. -/
theorem fixConvertsOrStoresNothing : Obligations.FixConvertsOrStoresNothing :=
  fun _ _ _ _ _ he hb =>
    ⟨fun hbig => ⟨unaryGroup_noStore he hb (fixCore_noStore hbig), unaryGroup_noStore he hb (fixrCore_noStore hbig)⟩,
     fun hfits => ⟨unaryGroup_ends he hb (fixCore_done hfits), unaryGroup_ends he hb (fixrCore_done hfits)⟩⟩

/-- Settles O48: the word of FLTR, what FIX and FIXR make of it, and the scaled operand of FSC. -/
theorem fltrAndFscAreExact : Obligations.FltrAndFscAreExact := by
  refine ⟨fun ac a s e b he hb => ⟨fltrWord b, fltrWord_isResultF b, unaryGroup_ends he hb (fltrCore_eq b), ?roundTrip⟩,
    fun ac a s e he => ?fsc⟩
  case roundTrip =>
    exact fun hsmall ac' a' s' e' he' hw =>
      ⟨unaryGroup_ends he' hw (fixCore_fltrWord hsmall), unaryGroup_ends he' hw (fixrCore_fltrWord hsmall)⟩
  case fsc =>
    obtain ⟨w, fl, hresult, hdone⟩ := fscCore_isResultF (s.ac ac) (Claims.shiftCount e)
    exact ⟨w, fl, hresult, countGroup_ends he hdone⟩

end Sys2Proof.Machine

/-! SUPPORT. Routing of the double and G-format floating instructions (30_encoding.md R156, R163; 45_float_double.md R460):
their groups end as `Claims.ends` says, and with HAS_GFLOAT a G-format instruction is its group. -/

namespace Sys2Proof.Machine

variable {s : State} {ac : AcNum} {a : AddrSpec} {e : Half} {f : Flags} {run : Out}

/-- R460: with HAS_GFLOAT a G-format instruction is not refused. -/
theorem ifGfloat_pos {op : BitVec 9} {xop : Option (BitVec 9)} {k : State → Out} (hg : s.cfg.hasGfloat = true) :
    ifGfloat op xop s k = k s :=
  if_pos hg

theorem doubleGroup_floatNoDivide {core : Word × Word → Word × Word → CoreOutcome (Word × Word)} {d : Word × Word}
    (he : effAddr s a = .ok e) (hd : Claims.pairAt s e d) (hcore : core (Claims.acs2 s ac) d = .noDivide .fdivf) :
    doubleGroup core ac a s = Claims.ends s Claims.floatNoDivideSet Claims.nothing := by
  refine (withE_withPair_of_pairAt he hd).trans ?_
  rw [acPair_eq_acs2, hcore, retire_floatNoDivide_eq_ends]

/-- R163: what runs as a group of two double words stores FRES of `q` where its operation is Done with FRES of `q`. -/
theorem doubleGroup_ends_result {core : Word × Word → Word × Word → CoreOutcome (Word × Word)} {d : Word × Word}
    {φ : Fmt} {q : ℚ} {rnd : Bool} (hrun : run = doubleGroup core ac a s) (he : effAddr s a = .ok e)
    (hd : Claims.pairAt s e d) (hcore : ∃ w fl, Claims.IsResult φ q rnd w fl ∧ core (Claims.acs2 s ac) d = .done w fl) :
    ∃ w fl, Claims.IsResult φ q rnd w fl ∧ run = Claims.ends s fl (Claims.toAcs ac w) := by
  obtain ⟨w, fl, hresult, hdone⟩ := hcore
  exact ⟨w, fl, hresult, hrun.trans (doubleGroup_ends he hd hdone)⟩

theorem narrowGroup_ends {core : Word × Word → CoreOutcome Word} {d : Word × Word} {r : Word}
    (he : effAddr s a = .ok e) (hd : Claims.pairAt s e d) (hcore : core d = .done r f) :
    narrowGroup core ac a s = Claims.ends s f (Claims.toAc ac r) := by
  refine (withE_withPair_of_pairAt he hd).trans ?_
  rw [hcore, retire_eq_ends]
  rfl

theorem narrowGroup_noStore {core : Word × Word → CoreOutcome Word} {d : Word × Word}
    (he : effAddr s a = .ok e) (hd : Claims.pairAt s e d) (hcore : core d = .noStore .ovf) :
    narrowGroup core ac a s = Claims.ends s Claims.overflowSet Claims.nothing := by
  refine (withE_withPair_of_pairAt he hd).trans ?_
  rw [hcore, retire_noStore_eq_ends]

theorem pairFromMemGroup_noStore {core : Word × Word → CoreOutcome (Word × Word)} {d : Word × Word}
    (he : effAddr s a = .ok e) (hd : Claims.pairAt s e d) (hcore : core d = .noStore .ovf) :
    pairFromMemGroup core ac a s = Claims.ends s Claims.overflowSet Claims.nothing := by
  refine (withE_withPair_of_pairAt he hd).trans ?_
  rw [hcore, retire_noStore_eq_ends]

theorem widenGroup_ends {core : Word → CoreOutcome (Word × Word)} {b : Word} {r : Word × Word}
    (he : effAddr s a = .ok e) (hb : s.readWord (loc e) = some b) (hcore : core b = .done r f) :
    widenGroup core ac a s = Claims.ends s f (Claims.toAcs ac r) := by
  rw [widenGroup_ok he hb, hcore, retire_eq_ends, storePair_eq_toAcs]

end Sys2Proof.Machine

/-! SUPPORT. The double and G-format floating operations of the core (45_float_double.md R450-R474): what each returns and
reports, by the rationals and the fractions its operands denote. -/

namespace Sys2Proof.Machine

open Claims (value valueF value71 IsResult IsResultF)

/-! ## Results of two words -/

/-- R356: an operand denotes the same rational in the model and in the statements. -/
theorem toRat_val (φ : Fmt) (w : Word × Word) : (val φ w).toRat = value φ w := val_toRat φ w

section result
variable {φ : Fmt} {x : Exact} {q : ℚ} {rnd : Bool}

/-- R367: the outcome of an exact result that denotes `q` is Done with FRES of `q`. -/
theorem resPair_isResult (hd : x.den ≠ 0) (hq : x.toRat = q) :
    ∃ w fl, IsResult φ q rnd w fl ∧ resPair φ x rnd = .done w fl :=
  ⟨_, _, hq ▸ isResult_fres φ rnd hd, rfl⟩

/-- R366: an exponent that stays in range, renormalized or not, reports nothing. -/
theorem fres_flags_eq_none (hfits : x.num ≠ 0 → 0 ≤ normExponent φ x ∧ normExponent φ x < φ.emax) :
    (fres φ x rnd).2 = .none := by
  by_cases hn : x.num = 0
  · rw [fres_of_num_eq_zero hn]
  · have hrange := hfits hn
    have hexp := roundTo_exponent φ x rnd
    rw [fres_of_num_ne_zero hn, rangeFlags, if_neg (by omega), if_neg (by omega)]

theorem resPair_isResult_none (hd : x.den ≠ 0) (hq : x.toRat = q)
    (hfits : x.num ≠ 0 → 0 ≤ normExponent φ x ∧ normExponent φ x < φ.emax) :
    ∃ w, IsResult φ q rnd w .none ∧ resPair φ x rnd = .done w .none := by
  have hflags := fres_flags_eq_none (rnd := rnd) hfits
  have hresult := isResult_fres φ rnd hd
  rw [hq, hflags] at hresult
  exact ⟨_, hresult, by rw [resPair, hflags]⟩

end result

/-! ## Addition, subtraction, multiplication and division -/

section arithmetic
variable {φ : Fmt} {rnd : Bool} {a b : Word × Word}

theorem floatAddCore_isResult :
    ∃ w fl, IsResult φ (value φ a + value φ b) rnd w fl ∧ floatAddCore φ rnd a b = .done w fl :=
  resPair_isResult (by simp) (by rw [Exact.toRat_add _ _ (by simp) (by simp), toRat_val, toRat_val])

theorem floatSubCore_isResult :
    ∃ w fl, IsResult φ (value φ a - value φ b) rnd w fl ∧ floatSubCore φ rnd a b = .done w fl :=
  resPair_isResult (by simp) (by rw [Exact.toRat_sub _ _ (by simp) (by simp), toRat_val, toRat_val])

theorem floatMulCore_isResult :
    ∃ w fl, IsResult φ (value φ a * value φ b) rnd w fl ∧ floatMulCore φ rnd a b = .done w fl :=
  resPair_isResult (by simp) (by rw [Exact.toRat_mul, toRat_val, toRat_val])

/-- R450: a divide that does not fail has a divisor other than zero, so its exact quotient is the quotient of the values. -/
theorem toRat_div_val (hok : ¬ Claims.FloatNoDivide φ a b) :
    ((val φ a).div (val φ b)).den ≠ 0 ∧ ((val φ a).div (val φ b)).toRat = value φ a / value φ b := by
  have hb : (val φ b).num ≠ 0 := fun hzero => hok (.inl hzero)
  exact ⟨by simpa using hb, by rw [Exact.toRat_div _ _ hb, toRat_val, toRat_val]⟩

end arithmetic

section divide
variable {cfg : Params} {a b : Word × Word}

theorem dfdvCore_noDivide (hfails : Claims.FloatNoDivide .d a b) : dfdvCore cfg a b = .noDivide .fdivf :=
  if_pos (floatDivideFails_iff.mpr hfails)

/-- R454, R368: every negative quotient is in the quirk band under FIDELITY = Hardware. -/
theorem dfdvCore_quirk (hok : ¬ Claims.FloatNoDivide .d a b)
    (hquirk : cfg.fidelity = .hardware ∧ value .d a / value .d b < 0) :
    dfdvCore cfg a b = .done (Config.qDfdv cfg.cpuModel a b).1 (Config.qDfdv cfg.cpuModel a b).2 := by
  obtain ⟨hden, hrat⟩ := toRat_div_val hok
  rw [← hrat, Exact.toRat_lt_zero hden] at hquirk
  rw [dfdvCore, if_neg (floatDivideFails_iff.not.mpr hok), if_pos hquirk, quirk]

theorem dfdvCore_isResult (hok : ¬ Claims.FloatNoDivide .d a b)
    (hquirk : ¬ (cfg.fidelity = .hardware ∧ value .d a / value .d b < 0)) :
    ∃ w fl, IsResult .d (value .d a / value .d b) cfg.doubleRound w fl ∧ dfdvCore cfg a b = .done w fl := by
  obtain ⟨hden, hrat⟩ := toRat_div_val hok
  rw [← hrat, Exact.toRat_lt_zero hden] at hquirk
  rw [dfdvCore, if_neg (floatDivideFails_iff.not.mpr hok), if_neg hquirk]
  exact resPair_isResult hden hrat

theorem gfdvCore_noDivide (hfails : Claims.FloatNoDivide .g a b) : gfdvCore a b = .noDivide .fdivf :=
  if_pos (floatDivideFails_iff.mpr hfails)

theorem gfdvCore_isResult (hok : ¬ Claims.FloatNoDivide .g a b) :
    ∃ w fl, IsResult .g (value .g a / value .g b) true w fl ∧ gfdvCore a b = .done w fl := by
  obtain ⟨hden, hrat⟩ := toRat_div_val hok
  rw [gfdvCore, if_neg (floatDivideFails_iff.not.mpr hok)]
  exact resPair_isResult hden hrat

end divide

/-! ## G values to integers -/

section fix
variable {d : Word × Word}

theorem gfixCore_noStore (hbig : (unpack .g d).1 > 0o2043) : gfixCore d = .noStore .ovf := if_pos hbig

theorem gfixrCore_noStore (hbig : (unpack .g d).1 > 0o2043) : gfixrCore d = .noStore .ovf := if_pos hbig

theorem dgfixCore_noStore (hbig : (unpack .g d).1 > 0o2106) : dgfixCore d = .noStore .ovf := if_pos hbig

theorem dgfixrCore_noStore (hbig : (unpack .g d).1 > 0o2106) : dgfixrCore d = .noStore .ovf := if_pos hbig

theorem trunc_val : (val .g d).trunc = Claims.truncated (value .g d) := by
  rw [Exact.trunc_eq_truncated (by simp), toRat_val]

theorem roundHalfUp_val : (val .g d).roundHalfUp = Claims.roundedHalfUp (value .g d) := by
  rw [Exact.roundHalfUp_eq_roundedHalfUp, toRat_val]

theorem gfixCore_done (hfits : (unpack .g d).1 ≤ 0o2043) :
    gfixCore d = .done (BitVec.ofInt 36 (Claims.truncated (value .g d))) .none := by
  rw [gfixCore, if_neg hfits.not_gt, trunc_val, mod36]

theorem gfixrCore_done (hfits : (unpack .g d).1 ≤ 0o2043) :
    gfixrCore d = .done (BitVec.ofInt 36 (Claims.roundedHalfUp (value .g d))) .none := by
  rw [gfixrCore, if_neg hfits.not_gt, roundHalfUp_val, mod36]

theorem dgfixCore_done (hfits : (unpack .g d).1 ≤ 0o2106) :
    dgfixCore d = .done (Claims.writeBack71 (Claims.truncated (value .g d))) .none := by
  rw [dgfixCore, if_neg hfits.not_gt, trunc_val, split71_ofInt]

theorem dgfixrCore_done (hfits : (unpack .g d).1 ≤ 0o2106) :
    dgfixrCore d = .done (Claims.writeBack71 (Claims.roundedHalfUp (value .g d))) .none := by
  rw [dgfixrCore, if_neg hfits.not_gt, roundHalfUp_val, split71_ofInt]

end fix

/-! ## Integers and F values to G values -/

/-- R471, R472: an integer of at most k bits, in a format whose exponents reach past k. -/
theorem resPair_ofInt {φ : Fmt} {v : Int} {k : Nat} {rnd : Bool} (hv : |v| < 2 ^ k) (hk : k + φ.bias < φ.emax) :
    ∃ w, IsResult φ (v : ℚ) rnd w .none ∧ resPair φ (.ofInt v) rnd = .done w .none := by
  refine resPair_isResult_none one_ne_zero (Exact.toRat_ofInt v) fun hne => ?fits
  case fits =>
    have hlog := log2_ofInt_bounds (v := v) hne hv
    rw [normExponent]
    omega

/-- R210: a double word's value has at most 70 bits of magnitude, or is -2^70. -/
theorem abs_value71_lt (d : Word × Word) : |value71 d| < 2 ^ 71 := by
  have hlo := (dval71 d).le_toInt
  have hhi := (dval71 d).toInt_lt
  rw [toInt_dval71] at hlo hhi
  rw [abs_lt]
  omega

theorem gfltrCore_isResult (b : Word) :
    ∃ w, IsResult .g (b.toInt : ℚ) true w .none ∧ gfltrCore b = .done w .none :=
  resPair_ofInt (abs_toInt_lt b) (by decide)

theorem dgfltrCore_isResult (d : Word × Word) :
    ∃ w, IsResult .g (value71 d : ℚ) true w .none ∧ dgfltrCore d = .done w .none :=
  resPair_ofInt (abs_value71_lt d) (by decide)

/-- R355: the range of the exponent and of the fraction of an operand. -/
theorem unpack_bounds (φ : Fmt) (w : Word × Word) :
    (0 ≤ (unpack φ w).1 ∧ (unpack φ w).1 < 2 ^ φ.ew) ∧ |(unpack φ w).2| ≤ 2 ^ φ.n := by
  have hexp : ((φ.expField w).toNat : Int) < 2 ^ φ.ew := by exact_mod_cast (φ.expField w).isLt
  have hfrac : ((φ.fracField w).toNat : Int) < 2 ^ φ.n := by
    have hwidth : φ.k + φ.k1 = φ.n := by cases φ <;> rfl
    rw [← hwidth]
    exact_mod_cast (φ.fracField w).isLt
  rw [unpack_eq_fields]
  split_ifs <;> simp only [abs_le] <;> omega

/-- R356: an operand is its fraction, an integer, scaled by its exponent. -/
theorem val_eq_scale (φ : Fmt) (w : Word × Word) :
    val φ w = (Exact.ofInt (unpack φ w).2).scale ((unpack φ w).1 - φ.bias - φ.n) := by
  rw [val, Exact.scale, Exact.ofInt, zero_add]

theorem Exact.log2_scale (x : Exact) (c : Int) : (x.scale c).log2 = x.log2 + c := by
  rw [log2, log2, add_assoc]
  rfl

/-- R474: every F value, normalized or not, has its exponent within the G range. -/
theorem normExponent_valF {b : Word} (hne : (valF b).num ≠ 0) :
    0 ≤ normExponent .g (valF b) ∧ normExponent .g (valF b) < Fmt.g.emax := by
  obtain ⟨hexp, hfrac⟩ := unpack_bounds .f (b, 0)
  have hlog := log2_ofInt_bounds (v := (unpack .f (b, 0)).2) (k := 28) hne (hfrac.trans_lt (by decide))
  rw [normExponent, valF, val_eq_scale, Exact.log2_scale]
  simp only [Fmt.ew, Fmt.bias, Fmt.n, Fmt.emax] at *
  omega

theorem gdbleCore_isResult (b : Word) :
    ∃ w, IsResult .g (valueF b) false w .none ∧ gdbleCore b = .done w .none :=
  resPair_isResult_none one_ne_zero (valF_toRat b) normExponent_valF

theorem gsnglCore_isResultF (d : Word × Word) :
    ∃ w fl, IsResultF (value .g d) true w fl ∧ gsnglCore d = .done w fl :=
  resF_isResultF one_ne_zero (toRat_val .g d)

/-! ## GFSC -/

section scale
variable {cfg : Params} {d : Word × Word} {c : Int}

/-- R470, R368: an all-ones fraction field with a positive scale is in the quirk band under FIDELITY = Hardware. -/
theorem gfscCore_quirk (hband : cfg.fidelity = .hardware ∧ (unpack .g d).2 % 2 ^ 59 = 2 ^ 59 - 1 ∧ c > 0) :
    gfscCore cfg d c = .done (Config.qGfsc cfg.cpuModel d c).1 (Config.qGfsc cfg.cpuModel d c).2 :=
  if_pos hband

theorem gfscCore_isResult (hband : ¬ (cfg.fidelity = .hardware ∧ (unpack .g d).2 % 2 ^ 59 = 2 ^ 59 - 1 ∧ c > 0)) :
    ∃ w fl, IsResult .g (value .g d * 2 ^ c) false w fl ∧ gfscCore cfg d c = .done w fl := by
  rw [gfscCore, if_neg hband]
  exact resPair_isResult one_ne_zero (by rw [Exact.toRat_scale, toRat_val])

end scale

end Sys2Proof.Machine

/-! PROOFS. The statements of 45_float_double.md. -/

namespace Sys2Proof.Machine

/-- Settles O49: the exact sum, difference and product, and the divide by its no-divide test and its quirk band. -/
theorem doubleFloatArithmeticIsExact : Obligations.DoubleFloatArithmeticIsExact :=
  fun _ _ _ _ _ he hd =>
    ⟨doubleGroup_ends_result rfl he hd floatAddCore_isResult, doubleGroup_ends_result rfl he hd floatSubCore_isResult,
     doubleGroup_ends_result rfl he hd floatMulCore_isResult,
     fun hfails => doubleGroup_floatNoDivide he hd (dfdvCore_noDivide hfails),
     fun hok hquirk => doubleGroup_ends he hd (dfdvCore_quirk hok hquirk),
     fun hok hquirk => doubleGroup_ends_result rfl he hd (dfdvCore_isResult hok hquirk)⟩

/-- Settles O50: the same sum, difference and product in G format, rounded, and a divide without a quirk band. -/
theorem gFloatArithmeticIsExact : Obligations.GFloatArithmeticIsExact :=
  fun _ _ _ _ _ hg he hd =>
    ⟨doubleGroup_ends_result (ifGfloat_pos hg) he hd floatAddCore_isResult,
     doubleGroup_ends_result (ifGfloat_pos hg) he hd floatSubCore_isResult,
     doubleGroup_ends_result (ifGfloat_pos hg) he hd floatMulCore_isResult,
     fun hfails => (ifGfloat_pos hg).trans (doubleGroup_floatNoDivide he hd (gfdvCore_noDivide hfails)),
     fun hok => doubleGroup_ends_result (ifGfloat_pos hg) he hd (gfdvCore_isResult hok)⟩

/-- Settles O51: the four conversions on either side of their largest exponents. -/
theorem gFixConvertsOrStoresNothing : Obligations.GFixConvertsOrStoresNothing := by
  intro ac a0 xac a1 s e d hg he hd
  refine ⟨fun hbig => ⟨?_, ?_⟩, fun hfits => ⟨?_, ?_⟩, fun hbig => ⟨?_, ?_⟩, fun hfits => ⟨?_, ?_⟩⟩ <;>
    refine (ifGfloat_pos hg).trans ?_
  · exact narrowGroup_noStore he hd (gfixCore_noStore hbig)
  · exact narrowGroup_noStore he hd (gfixrCore_noStore hbig)
  · exact narrowGroup_ends he hd (gfixCore_done hfits)
  · exact narrowGroup_ends he hd (gfixrCore_done hfits)
  · exact pairFromMemGroup_noStore he hd (dgfixCore_noStore hbig)
  · exact pairFromMemGroup_noStore he hd (dgfixrCore_noStore hbig)
  · exact pairFromMemGroup_ends he hd (dgfixCore_done hfits)
  · exact pairFromMemGroup_ends he hd (dgfixrCore_done hfits)

/-- Settles O52: the exponent of an integer or of an F value is within the G range; that of a G value may leave the F range. -/
theorem gConversionsAreExact : Obligations.GConversionsAreExact := by
  refine fun ac a0 xac a1 s e hg he => ⟨fun b hb => ⟨?gfltr, ?gdble⟩, fun d hd => ⟨?dgfltr, ?gsngl⟩⟩
  case gfltr =>
    exact (gfltrCore_isResult b).imp fun w ⟨hresult, hdone⟩ =>
      ⟨hresult, (ifGfloat_pos hg).trans (widenGroup_ends he hb hdone)⟩
  case gdble =>
    exact (gdbleCore_isResult b).imp fun w ⟨hresult, hdone⟩ =>
      ⟨hresult, (ifGfloat_pos hg).trans (widenGroup_ends he hb hdone)⟩
  case dgfltr =>
    exact (dgfltrCore_isResult d).imp fun w ⟨hresult, hdone⟩ =>
      ⟨hresult, (ifGfloat_pos hg).trans (pairFromMemGroup_ends he hd hdone)⟩
  case gsngl =>
    obtain ⟨w, fl, hresult, hdone⟩ := gsnglCore_isResultF d
    exact ⟨w, fl, hresult, (ifGfloat_pos hg).trans (narrowGroup_ends he hd hdone)⟩

/-- Settles O53: the scaled operand, outside the quirk band of all-ones fraction fields. -/
theorem gfscScalesOrIsAQuirk : Obligations.GfscScalesOrIsAQuirk := by
  refine fun ac a0 xac a1 s e hg he => ⟨fun hband => ?quirk, fun hband => ?scaled⟩
  case quirk => exact (ifGfloat_pos hg).trans (countPairGroup_ends he (gfscCore_quirk hband))
  case scaled =>
    obtain ⟨w, fl, hresult, hdone⟩ := gfscCore_isResult hband
    exact ⟨w, fl, hresult, (ifGfloat_pos hg).trans (countPairGroup_ends he hdone)⟩

end Sys2Proof.Machine

/-! SUPPORT. What a byte pointer decodes to (46_byte_pointer.md R501-R507): the canonical form case by case, what holds of
every canonical form, and when BP_TRAP holds of it. -/

namespace Sys2Proof.Machine

/-! ## Fields -/

theorem toNat_extractLsb'_eq_field (w : Word) (lo n : Nat) : (w.extractLsb' lo n).toNat = Claims.field w lo n := by
  rw [BitVec.extractLsb'_toNat, Nat.shiftRight_eq_div_pow, Claims.field]

theorem ofNat_field (w : Word) (lo n : Nat) {m : Nat} :
    BitVec.ofNat m (Claims.field w lo n) = (w.extractLsb' lo n).setWidth m := by
  rw [← toNat_extractLsb'_eq_field, BitVec.ofNat_toNat]

theorem pField_eq_field (w : Word) : pField w = Claims.field w 30 6 := toNat_extractLsb'_eq_field w 30 6

theorem sField_eq_field (w : Word) : sField w = Claims.field w 24 6 := toNat_extractLsb'_eq_field w 24 6

theorem pField_lt (w : Word) : pField w < 64 := BitVec.isLt _

theorem sField_lt (w : Word) : sField w < 64 := BitVec.isLt _

/-! ## The code table (R504) -/

theorem owgRows_eq_owgTable : owgRows = Claims.owgTable := rfl

theorem owgDecode_of_mem : ∀ row ∈ Claims.owgTable, 36 < row.1 ∧ owgDecode row.1 = some row.2 := by decide

theorem mem_of_owgDecode {code : Nat} {v : Nat × Nat} (h : owgDecode code = some v) : (code, v) ∈ Claims.owgTable :=
  owgRows_eq_owgTable ▸ mem_of_lookup h

theorem owgTable_lt : ∀ row ∈ Claims.owgTable, row.2.1 < 64 ∧ row.2.2 < 64 := by decide

/-! ## The canonical form, case by case (R506) -/

section canon
variable {cfg : Params} {w0 : Word} {m1 : Except MemInfo Word}

theorem canon_owl (h : cfg.extended = false ∨ (pField w0 ≤ 36 ∧ w0.getLsbD 23 = false)) :
    canon cfg w0 m1 = .ok ⟨.owl, pField w0, sField w0, w0.getLsbD 22, w0.extractLsb' 18 4, loc (w0.extractLsb' 0 18)⟩ := by
  have hlocal : (!cfg.extended || (decide (pField w0 ≤ 36) && !w0.getLsbD 23)) = true := by
    rcases h with h | ⟨hp, hb⟩
    · simp [h]
    · rw [hb]; simp [hp]
  rw [canon, if_pos hlocal]

/-- R504: with EXTENDED a P above 36 is a code of the table. -/
theorem canon_code_some (hx : cfg.extended = true) (hp : 36 < pField w0) {v : Nat × Nat}
    (hcode : owgDecode (pField w0) = some v) :
    canon cfg w0 m1 = .ok ⟨.owg, v.1, v.2, false, 0, w0.extractLsb' 0 30⟩ := by
  simp [canon, hx, hp, Nat.not_le.mpr hp, hcode]

/-- R504: with EXTENDED a P above 36 that is no code of the table is malformed. -/
theorem canon_code_none (hx : cfg.extended = true) (hp : 36 < pField w0) (hcode : owgDecode (pField w0) = none) :
    canon cfg w0 m1 = .ok ⟨.owgBad, pField w0, sField w0, false, 0, 0⟩ := by
  simp [canon, hx, hp, Nat.not_le.mpr hp, hcode]

theorem canon_owg (hx : cfg.extended = true) {p' s' : Nat} (h : (pField w0, p', s') ∈ Claims.owgTable) :
    canon cfg w0 m1 = .ok ⟨.owg, p', s', false, 0, w0.extractLsb' 0 30⟩ := by
  obtain ⟨hp, hcode⟩ := owgDecode_of_mem _ h
  exact canon_code_some hx hp hcode

theorem canon_owgBad (hx : cfg.extended = true) (hp : pField w0 = 0o77) :
    canon cfg w0 m1 = .ok ⟨.owgBad, pField w0, sField w0, false, 0, 0⟩ :=
  canon_code_none hx (hp ▸ by decide) (hp ▸ rfl)

theorem canon_twoWord (hx : cfg.extended = true) (hp : pField w0 ≤ 36) (hb : w0.getLsbD 23 = true) :
    canon cfg w0 m1 = m1.map (canonTwoWord (pField w0) (sField w0)) := by
  simp [canon, hx, hb, Nat.not_lt.mpr hp]

/-- Everything a pointer can decode to. -/
theorem canon_cases {bp : Bp} (h : canon cfg w0 m1 = .ok bp) :
    bp = ⟨.owl, pField w0, sField w0, w0.getLsbD 22, w0.extractLsb' 18 4, loc (w0.extractLsb' 0 18)⟩ ∨
    (∃ code p' s', (code, p', s') ∈ Claims.owgTable ∧ bp = ⟨.owg, p', s', false, 0, w0.extractLsb' 0 30⟩) ∨
    bp = ⟨.owgBad, pField w0, sField w0, false, 0, 0⟩ ∨
    (∃ w1, m1 = .ok w1 ∧ bp = canonTwoWord (pField w0) (sField w0) w1) := by
  by_cases hlocal : cfg.extended = false ∨ (pField w0 ≤ 36 ∧ w0.getLsbD 23 = false)
  · rw [canon_owl hlocal, Except.ok.injEq] at h
    exact .inl h.symm
  · simp only [not_or, Bool.not_eq_false, not_and] at hlocal
    obtain ⟨hx, hb⟩ := hlocal
    by_cases hp : pField w0 ≤ 36
    · rw [canon_twoWord hx hp (hb hp)] at h
      cases m1 with
      | error info => cases h
      | ok w1 => exact .inr (.inr (.inr ⟨w1, rfl, (Except.ok.inj h).symm⟩))
    · have hhigh : 36 < pField w0 := Nat.lt_of_not_le hp
      cases hcode : owgDecode (pField w0) with
      | none =>
        rw [canon_code_none hx hhigh hcode] at h
        exact .inr (.inr (.inl (Except.ok.inj h).symm))
      | some v =>
        rw [canon_code_some hx hhigh hcode] at h
        exact .inr (.inl ⟨_, v.1, v.2, mem_of_owgDecode hcode, (Except.ok.inj h).symm⟩)

end canon

/-! ## The second word (R502) -/

theorem field_34_2 (w : Word) : Claims.field w 34 2 = 2 * (w.getLsbD 35).toNat + (w.getLsbD 34).toNat := by
  simp only [Claims.field, BitVec.getLsbD, Nat.testBit_eq_decide_div_mod_eq, Bool.toNat, Bool.cond_decide]
  split <;> split <;> omega

theorem field_34_2_eq_two {w : Word} : Claims.field w 34 2 = 2 ↔ w.getLsbD 35 = true ∧ w.getLsbD 34 = false := by
  rw [field_34_2]
  cases w.getLsbD 35 <;> cases w.getLsbD 34 <;> decide

theorem field_34_2_lt_two {w : Word} : Claims.field w 34 2 < 2 ↔ w.getLsbD 35 = false := by
  rw [field_34_2]
  cases w.getLsbD 35 <;> cases w.getLsbD 34 <;> decide

theorem field_34_2_eq_three {w : Word} : Claims.field w 34 2 = 3 ↔ w.getLsbD 35 = true ∧ w.getLsbD 34 = true := by
  rw [field_34_2]
  cases w.getLsbD 35 <;> cases w.getLsbD 34 <;> decide

theorem canonTwoWord_twl (p sz : Nat) {w1 : Word} (h : Claims.field w1 34 2 = 2) :
    canonTwoWord p sz w1 = ⟨.twl, p, sz, w1.getLsbD 22, w1.extractLsb' 18 4, loc (w1.extractLsb' 0 18)⟩ := by
  obtain ⟨h35, h34⟩ := field_34_2_eq_two.mp h
  rw [canonTwoWord, h35, h34]
  rfl

theorem canonTwoWord_twg (p sz : Nat) {w1 : Word} (h : Claims.field w1 34 2 < 2) :
    canonTwoWord p sz w1 = ⟨.twg, p, sz, w1.getLsbD 34, w1.extractLsb' 30 4, w1.extractLsb' 0 30⟩ := by
  rw [canonTwoWord, field_34_2_lt_two.mp h]
  rfl

theorem canonTwoWord_twBad (p sz : Nat) {w1 : Word} (h : Claims.field w1 34 2 = 3) :
    canonTwoWord p sz w1 = ⟨.twBad, p, sz, false, 0, 0⟩ := by
  obtain ⟨h35, h34⟩ := field_34_2_eq_three.mp h
  rw [canonTwoWord, h35, h34]
  rfl

/-- A second word is an IFIW, an EFIW or malformed, and leaves P and S as the first word gives them. -/
theorem canonTwoWord_fields (p sz : Nat) (w1 : Word) :
    ((canonTwoWord p sz w1).form = .twl ∨ (canonTwoWord p sz w1).form = .twg ∨ (canonTwoWord p sz w1).form = .twBad) ∧
      (canonTwoWord p sz w1).p = p ∧ (canonTwoWord p sz w1).s = sz := by
  unfold canonTwoWord
  split
  · split
    · exact ⟨.inr (.inr rfl), rfl, rfl⟩
    · exact ⟨.inl rfl, rfl, rfl⟩
  · exact ⟨.inr (.inl rfl), rfl, rfl⟩

/-! ## What holds of every canonical form -/

section decoded
variable {cfg : Params} {w0 : Word} {m1 : Except MemInfo Word} {bp : Bp}

theorem canon_lt (h : canon cfg w0 m1 = .ok bp) : bp.p < 64 ∧ bp.s < 64 := by
  obtain rfl | ⟨code, p', s', hcode, rfl⟩ | rfl | ⟨w1, -, rfl⟩ := canon_cases h
  · exact ⟨pField_lt w0, sField_lt w0⟩
  · exact owgTable_lt _ hcode
  · exact ⟨pField_lt w0, sField_lt w0⟩
  · obtain ⟨-, hp, hs⟩ := canonTwoWord_fields (pField w0) (sField w0) w1
    exact ⟨hp.trans_lt (pField_lt w0), hs.trans_lt (sField_lt w0)⟩

/-- R504: the P and S of a one-word global have a code. -/
theorem canon_owg_mem (h : canon cfg w0 m1 = .ok bp) (hform : bp.form = .owg) :
    ∃ code, (code, bp.p, bp.s) ∈ Claims.owgTable := by
  obtain rfl | ⟨code, p', s', hcode, rfl⟩ | rfl | ⟨w1, -, rfl⟩ := canon_cases h
  · cases hform
  · exact ⟨code, hcode⟩
  · cases hform
  · obtain ⟨htwo, -, -⟩ := canonTwoWord_fields (pField w0) (sField w0) w1
    simp [hform] at htwo

/-- R505: a two-word pointer's second word was read. -/
theorem canon_twoWord_read (h : canon cfg w0 m1 = .ok bp) (hform : bp.form = .twl ∨ bp.form = .twg) :
    ∃ w1, m1 = .ok w1 := by
  obtain rfl | ⟨code, p', s', -, rfl⟩ | rfl | ⟨w1, hw1, -⟩ := canon_cases h
  · simp at hform
  · simp at hform
  · simp at hform
  · exact ⟨w1, hw1⟩

end decoded

/-! ## BP_TRAP (R507) -/

theorem bpTraps_malformed (c : BpTrapChoice) {bp : Bp} (h : bp.form = .owgBad ∨ bp.form = .twBad) :
    bpTraps c bp = true := by
  rcases h with h | h <;> simp [bpTraps, h]

theorem bpTraps_sized (c : BpTrapChoice) {bp : Bp} (h : ¬ (bp.form = .owgBad ∨ bp.form = .twBad)) (hs : bp.s ≠ 0) :
    bpTraps c bp = false := by
  cases hform : bp.form <;> simp_all [bpTraps]

/-- The default mask holds every P but 0. -/
theorem standardMask_getLsbD : ∀ p < 64, BpTrapChoice.standard.owl.getLsbD p = decide (p ≠ 0) := by decide

theorem bpTraps_standard {bp : Bp} (hp : bp.p < 64) :
    bpTraps .standard bp = true ↔
      bp.form = .owgBad ∨ bp.form = .twBad ∨ (bp.form ≠ .owg ∧ bp.s = 0 ∧ bp.p ≠ 0) := by
  have hmask := standardMask_getLsbD bp.p hp
  have htwl : BpTrapChoice.standard.twl.getLsbD bp.p = decide (bp.p ≠ 0) := hmask
  have htwg : BpTrapChoice.standard.twg.getLsbD bp.p = decide (bp.p ≠ 0) := hmask
  cases hform : bp.form <;> simp [bpTraps, hform, -BitVec.getLsbD_eq_getElem, hmask, htwl, htwg]

end Sys2Proof.Machine

/-! SUPPORT. The byte's word (46_byte_pointer.md R508, R510, R511): its address in each form, and the byte read from it and
deposited in it, bit by bit. -/

namespace Sys2Proof.Machine

/-! ## The byte's address (R508) -/

section address
variable {s : State} {bp : Bp}

/-- R711: a local pointer's address is the effective address of its fields, fault and cycle included. -/
theorem byteAddr_local (h : bp.form = .owl ∨ bp.form = .twl) :
    byteAddr s bp = (effAddr s ⟨bp.i, bp.x, bp.y.setWidth 18⟩).map loc := by
  rcases h with h | h <;> rw [byteAddr, h] <;> rfl

theorem byteAddr_owg (h : bp.form = .owg) : byteAddr s bp = .ok bp.y := by
  rw [byteAddr, h]

theorem byteAddr_twg_direct (h : bp.form = .twg) (hi : bp.i = false) :
    byteAddr s bp = .ok (BitVec.ofNat 30 (bp.y.toNat + if bp.x = 0 then 0 else (s.ac bp.x).toNat)) := by
  rw [byteAddr, h]
  simp only [hi, resolveGlobal_direct, BitVec.ofNat_add, BitVec.ofNat_toNat, BitVec.setWidth_eq]
  split <;> simp

end address

/-! ## Extract and deposit (R510, R511) -/

theorem isByte_extractByte (w : Word) (p sz : Nat) : Claims.IsByte w p sz (extractByte w p sz) := by
  intro i hi
  rw [extractByte, BitVec.getLsbD_ofNat, Nat.testBit_mod_two_pow, Nat.testBit_div_two_pow, Nat.add_comm i p]
  simp only [hi, decide_true, Bool.true_and]
  rfl

/-- The mask holds the positions P to P + S - 1. -/
theorem byteMask_getLsbD (p sz : Nat) {i : Nat} (hi : i < 36) :
    (byteMask p sz).getLsbD i = decide (p ≤ i ∧ i < p + sz) := by
  rw [byteMask, BitVec.getLsbD_ofNat, ← Nat.shiftLeft_eq, Nat.testBit_shiftLeft, Nat.testBit_two_pow_sub_one]
  simp only [hi, decide_true, Bool.true_and, ge_iff_le, ← Bool.decide_and, decide_eq_decide]
  omega

theorem isDeposit_depositByte (w b : Word) (p sz : Nat) : Claims.IsDeposit w b p sz (depositByte w b p sz) := by
  intro i hi
  rw [depositByte, ofNat_mul_two_pow, BitVec.getLsbD_or, BitVec.getLsbD_and, BitVec.getLsbD_and, BitVec.getLsbD_not,
    BitVec.getLsbD_shiftLeft, byteMask_getLsbD p sz hi]
  by_cases hmask : p ≤ i ∧ i < p + sz
  · simp [hmask, hi, Nat.not_lt.mpr hmask.1]
  · simp [hmask, hi]

end Sys2Proof.Machine

/-! SUPPORT. Where a byte operation stops (46_byte_pointer.md R505, R507, R508; 60_exceptions.md R604): the second word, the
trap, the byte's address, the byte's word. -/

namespace Sys2Proof.Machine

section stops
variable {s : State} {w0 : Word} {m1 : Except MemInfo Word} {bp : Bp} {x : MemAddr} {α : Type}

theorem withPointer_error {cfg : Params} {info : MemInfo} {k : Bp → CoreOutcome α}
    (h : canon cfg w0 m1 = .error info) : withPointer cfg w0 m1 k = .memFault info := by simp [withPointer, h]

theorem withPointer_traps {cfg : Params} {k : Bp → CoreOutcome α} (h : canon cfg w0 m1 = .ok bp)
    (ht : bpTraps cfg.bpTrap bp = true) : withPointer cfg w0 m1 k = .bpTrap bp.form bp.p bp.s := by
  simp [withPointer, h, ht]

theorem withByteWord_fault {info : MemInfo} {k : MemAddr → Word → CoreOutcome α}
    (h : byteAddr s bp = .error (.fault info)) : withByteWord s bp k = .memFault info := by simp [withByteWord, h]

theorem withByteWord_unwritten {k : MemAddr → Word → CoreOutcome α} (hx : byteAddr s bp = .ok x)
    (hw : s.readWord x = none) : withByteWord s bp k = .memFault (.unwritten x) := by simp [withByteWord, hx, hw]

theorem secondWord_unwritten {e : Half} (h : s.readWord (Claims.succAddr s.cfg e) = none) :
    secondWord s e = .error (.unwritten (Claims.succAddr s.cfg e)) := by
  rw [← nextLoc_eq_succAddr] at h ⊢
  simp [secondWord, h]

end stops

end Sys2Proof.Machine

/-! SUPPORT. The pointer advanced and written back (46_byte_pointer.md R504, R509, R512): a pointer that is used has a form
and, as a one-word global, a code; the next byte's pointer is again such a one, and its words are those R509 gives. -/

namespace Sys2Proof.Machine

/-! ## Pointers that are used -/

/-- What holds of a pointer that has decoded and is not trapped: P and S have six bits, its form is not malformed, and the P
and S of a one-word global have a code. -/
structure Bp.Usable (bp : Bp) : Prop where
  p_lt : bp.p < 64
  s_lt : bp.s < 64
  wellFormed : ¬ (bp.form = .owgBad ∨ bp.form = .twBad)
  coded : bp.form = .owg → ∃ code, (code, bp.p, bp.s) ∈ Claims.owgTable

section used
variable {s : State} {e : Half} {w0 w1 : Word} {bp bp' : Bp}

theorem usable_of_pointerAt (h : Claims.PointerAt s e w0 bp) : bp.Usable := by
  obtain ⟨-, hcanon, htrap⟩ := h
  obtain ⟨hp, hs⟩ := canon_lt hcanon
  refine ⟨hp, hs, fun hbad => ?_, canon_owg_mem hcanon⟩
  rw [bpTraps_malformed _ hbad] at htrap
  cases htrap

/-- The second word of a two-word pointer that is used was read, so it is the one the statements name. -/
theorem secondWord_of_pointerAt (h : Claims.PointerAt s e w0 bp) (h1 : Claims.secondIs s e w1)
    (htwo : bp.form = .twl ∨ bp.form = .twg) : (secondWord s e).toOption.getD 0 = w1 := by
  obtain ⟨-, hcanon, -⟩ := h
  obtain ⟨w, hw⟩ := canon_twoWord_read hcanon htwo
  rw [hw]
  rw [secondWord, nextLoc_eq_succAddr] at hw
  cases hread : s.readWord (Claims.succAddr s.cfg e) with
  | none =>
    rw [hread] at hw
    cases hw
  | some v =>
    rw [hread] at hw
    cases hw
    exact (h1 _ hread).symm

/-! ## The address field moved (R512) -/

theorem loc_add_ofInt (y : MemAddr) (q : Int) :
    loc (y.setWidth 18 + BitVec.ofInt 18 q) = BitVec.ofInt 30 ((y.toNat + q) % 2 ^ 18) := by
  apply BitVec.eq_of_toNat_eq
  simp only [loc, BitVec.toNat_setWidth, BitVec.toNat_add, BitVec.toNat_ofInt]
  omega

theorem add_ofInt (y : MemAddr) (q : Int) : y + BitVec.ofInt 30 q = BitVec.ofInt 30 ((y.toNat + q) % 2 ^ 30) := by
  apply BitVec.eq_of_toNat_eq
  simp only [BitVec.toNat_add, BitVec.toNat_ofInt]
  omega

theorem advanceY_eq_movedY (bp : Bp) (q : Int) : advanceY bp q = Claims.movedY bp q := by
  unfold advanceY Claims.movedY
  cases bp.form with
  | owl => exact loc_add_ofInt bp.y q
  | twl => exact loc_add_ofInt bp.y q
  | owg => exact add_ofInt bp.y q
  | twg => exact add_ofInt bp.y q
  | owgBad => rfl
  | twBad => rfl

/-! ## The next byte (R512) -/

theorem incPointer_eq_incremented (h : bp.Usable) : incPointer bp = Claims.incremented bp := by
  have hs := h.s_lt
  have hwrap : (100 - bp.s) % 64 = ((36 - (bp.s : Int)) % 64).toNat := by omega
  rw [incPointer, Claims.incremented, hwrap, advanceY_eq_movedY]

@[simp] theorem incremented_form (bp : Bp) : (Claims.incremented bp).form = bp.form := by
  unfold Claims.incremented
  split <;> rfl

@[simp] theorem incremented_s (bp : Bp) : (Claims.incremented bp).s = bp.s := by
  unfold Claims.incremented
  split <;> rfl

theorem incremented_p (bp : Bp) : (Claims.incremented bp).p =
    if bp.s ≤ bp.p then bp.p - bp.s else ((36 - (bp.s : Int)) % 64).toNat := by
  unfold Claims.incremented
  split <;> rfl

/-- R512: every P a one-word global advances to has a code. -/
theorem owgTable_incremented : ∀ row ∈ Claims.owgTable, ∃ next ∈ Claims.owgTable, next.2.2 = row.2.2 ∧
    next.2.1 = if row.2.2 ≤ row.2.1 then row.2.1 - row.2.2 else ((36 - (row.2.2 : Int)) % 64).toNat := by decide

theorem usable_incremented (h : bp.Usable) : (Claims.incremented bp).Usable where
  p_lt := by
    have hp := h.p_lt
    rw [incremented_p]
    split <;> omega
  s_lt := by simpa using h.s_lt
  wellFormed := by simpa using h.wellFormed
  coded hform := by
    obtain ⟨code, hcode⟩ := h.coded (by simpa using hform)
    obtain ⟨⟨code', _, _⟩, hmem, rfl, rfl⟩ := owgTable_incremented _ hcode
    rw [incremented_p, incremented_s]
    exact ⟨code', hmem⟩

/-! ## The position field (R504, R509) -/

theorem owgCode_of_mem : ∀ row ∈ Claims.owgTable, row.1 < 64 ∧ owgCode row.2.2 row.2.1 = some row.1 := by decide

theorem isPosition_positionField (h : bp'.Usable) (hform : bp'.form = bp.form) (hs : bp'.s = bp.s) :
    Claims.IsPosition bp bp'.p (positionField bp').toNat := by
  have hp : (BitVec.ofNat 6 bp'.p).toNat = bp'.p := Nat.mod_eq_of_lt h.p_lt
  unfold Claims.IsPosition positionField
  rw [hform, ← hs]
  cases hf : bp.form with
  | owl => exact hp
  | twl => exact hp
  | twg => exact hp
  | owg =>
    obtain ⟨code, hmem⟩ := h.coded (hform.trans hf)
    obtain ⟨hlt, hcode⟩ := owgCode_of_mem _ hmem
    have hfield : (BitVec.ofNat 6 ((owgCode bp'.s bp'.p).getD 0)).toNat = code := by
      rw [hcode]
      exact Nat.mod_eq_of_lt hlt
    exact hfield.symm ▸ hmem
  | owgBad => exact absurd (.inl (hform.trans hf)) h.wellFormed
  | twBad => exact absurd (.inr (hform.trans hf)) h.wellFormed

/-! ## The words written back (R509) -/

/-- The second word matters to a two-word pointer only. -/
theorem encode2_congr (pf : BitVec 6) {v1 : Word} (h : bp.form = .twl ∨ bp.form = .twg → v1 = w1) :
    encode2 bp pf w0 v1 = encode2 bp pf w0 w1 := by
  unfold encode2
  cases hf : bp.form with
  | twl => rw [h (.inl hf)]
  | twg => rw [h (.inr hf)]
  | _ => rfl

theorem isWrittenBack_encode2 (h : ¬ (bp.form = .owgBad ∨ bp.form = .twBad)) (hform : bp'.form = bp.form)
    (pf : BitVec 6) (w0 w1 : Word) :
    Claims.IsWrittenBack bp pf.toNat bp'.y w0 w1 (encode2 bp' pf w0 w1).1 (encode2 bp' pf w0 w1).2 := by
  have hpf := pf.isLt
  have hy := bp'.y.isLt
  unfold Claims.IsWrittenBack encode2 Claims.field
  rw [hform]
  cases hf : bp.form with
  | owl =>
    simp only [toNat_append_eq_add, BitVec.extractLsb'_toNat, Nat.shiftRight_eq_div_pow, and_true]
    omega
  | owg =>
    simp only [toNat_append_eq_add, and_true]
    omega
  | twl =>
    simp only [toNat_append_eq_add, BitVec.extractLsb'_toNat, Nat.shiftRight_eq_div_pow, Option.some.injEq,
      exists_eq_left']
    omega
  | twg =>
    simp only [toNat_append_eq_add, BitVec.extractLsb'_toNat, Nat.shiftRight_eq_div_pow, Option.some.injEq,
      exists_eq_left']
    omega
  | owgBad => exact absurd (.inl hf) h
  | twBad => exact absurd (.inr hf) h

/-- R509, R512: the words of the pointer to the next byte. -/
theorem isWrittenBack_incremented (h : bp.Usable) (w0 w1 : Word) :
    Claims.IsPosition bp (Claims.incremented bp).p (positionField (Claims.incremented bp)).toNat ∧
    Claims.IsWrittenBack bp (positionField (Claims.incremented bp)).toNat (Claims.incremented bp).y w0 w1
      (encode2 (Claims.incremented bp) (positionField (Claims.incremented bp)) w0 w1).1
      (encode2 (Claims.incremented bp) (positionField (Claims.incremented bp)) w0 w1).2 :=
  ⟨isPosition_positionField (usable_incremented h) (incremented_form bp) (incremented_s bp),
   isWrittenBack_encode2 h.wellFormed (incremented_form bp) _ w0 w1⟩

end used

end Sys2Proof.Machine

/-! SUPPORT. The byte instructions through a pointer that is used (46_byte_pointer.md R500, R510-R516; 70_reset_and_hazards.md
R712-R714): each is the end of its operation after canonicalization, and its stores are those the statements name. -/

namespace Sys2Proof.Machine

section routed
variable {s : State} {ac : AcNum} {a : AddrSpec} {e : Half} {w0 w1 : Word} {bp : Bp}

/-! ## Stores -/

theorem storePointer_eq_pointerTo (e : Half) (v : Word × Option Word) (u : State) :
    storePointer e (some v) u = Claims.pointerTo e v.1 v.2 u := by
  obtain ⟨v0, _ | v1⟩ := v
  · rfl
  · exact storeMemPair_eq e (v0, v1) u

theorem storeByteAc_eq_pointerToAc (ac : AcNum) (v : Word × Option Word) :
    storeByteAc ac (some v) = Claims.pointerToAc ac v.1 v.2 := by
  obtain ⟨v0, _ | v1⟩ := v <;> rfl

/-! ## After canonicalization -/

/-- An operation that begins with canonicalization goes on with the pointer's canonical form. -/
theorem byteGroup_of_pointerAt {core : State → Word → Except MemInfo Word → CoreOutcome ByteResult}
    {k : Bp → CoreOutcome ByteResult} (he : effAddr s a = .ok e) (hptr : Claims.PointerAt s e w0 bp)
    (hcore : core s w0 (secondWord s e) = withPointer s.cfg w0 (secondWord s e) k) :
    byteGroup core ac a s = retire s (k bp) (storeByte ac e) := by
  obtain ⟨hw, hcanon, htrap⟩ := hptr
  rw [byteGroup_ok he hw, hcore, withPointer_ok hcanon htrap]

theorem exec_ldb_of_pointerAt (he : effAddr s a = .ok e) (hptr : Claims.PointerAt s e w0 bp) :
    exec (.ldb ac a) s = retire s (withByteWord s bp fun _ w =>
      .done ⟨none, none, some (extractByte w bp.p bp.s, none)⟩ .none) (storeByte ac e) :=
  byteGroup_of_pointerAt (core := ldbCore) he hptr rfl

theorem exec_dpb_of_pointerAt (he : effAddr s a = .ok e) (hptr : Claims.PointerAt s e w0 bp) :
    exec (.dpb ac a) s = retire s (withByteWord s bp fun x w => withByteWrite s x
      (.done ⟨some (x, depositByte w (s.ac ac) bp.p bp.s), none, none⟩ .none)) (storeByte ac e) :=
  byteGroup_of_pointerAt (core := fun s => dpbCore s (s.ac ac)) he hptr rfl

/-- R509: the words of a pointer written back in its own form, over the second word the statements name. -/
theorem encPointer_of_pointerAt {bp' : Bp} (hptr : Claims.PointerAt s e w0 bp) (h1 : Claims.secondIs s e w1)
    (hform : bp'.form = bp.form) :
    encPointer bp' w0 (secondWord s e) = encode2 bp' (positionField bp') w0 w1 :=
  encode2_congr _ fun htwo => secondWord_of_pointerAt hptr h1 (hform ▸ htwo)

theorem exec_ibp_of_pointerAt (he : effAddr s a = .ok e) (hptr : Claims.PointerAt s e w0 bp) :
    exec (.ibp a) s = retire s
      (.done ⟨none, some (encPointer (Claims.incremented bp) w0 (secondWord s e)), none⟩ .none) (storeByte 0 e) := by
  rw [← incPointer_eq_incremented (usable_of_pointerAt hptr)]
  exact byteGroup_of_pointerAt (core := ibpCore) he hptr rfl

theorem exec_ildb_of_pointerAt (he : effAddr s a = .ok e) (hptr : Claims.PointerAt s e w0 bp) :
    exec (.ildb ac a) s = retire s (withByteWord s (Claims.incremented bp) fun _ w =>
      .done ⟨none, some (encPointer (Claims.incremented bp) w0 (secondWord s e)),
        some (extractByte w (Claims.incremented bp).p bp.s, none)⟩ .none) (storeByte ac e) := by
  rw [← incPointer_eq_incremented (usable_of_pointerAt hptr)]
  exact byteGroup_of_pointerAt (core := ildbCore) he hptr rfl

theorem exec_idpb_of_pointerAt (he : effAddr s a = .ok e) (hptr : Claims.PointerAt s e w0 bp) :
    exec (.idpb ac a) s = retire s (withByteWord s (Claims.incremented bp) fun x w => withByteWrite s x
      (.done ⟨some (x, depositByte w (s.ac ac) (Claims.incremented bp).p bp.s),
        some (encPointer (Claims.incremented bp) w0 (secondWord s e)), none⟩ .none)) (storeByte ac e) := by
  rw [← incPointer_eq_incremented (usable_of_pointerAt hptr)]
  exact byteGroup_of_pointerAt (core := fun s => idpbCore s (s.ac ac)) he hptr rfl

/-! ## The rows of the statements -/

/-- Every byte instruction begins with canonicalization. -/
theorem exec_byteInstrs (he : effAddr s a = .ok e) (hw : s.readWord (loc e) = some w0) :
    ∀ i ∈ Claims.byteInstrs ac a, ∃ k ac',
      exec i s = retire s (withPointer s.cfg w0 (secondWord s e) k) (storeByte ac' e) := by
  simp only [Claims.byteInstrs, List.forall_mem_cons, List.not_mem_nil, false_imp_iff, implies_true, and_true]
  exact ⟨⟨_, ac, byteGroup_ok (core := ldbCore) he hw⟩,
    ⟨_, ac, byteGroup_ok (core := fun s => dpbCore s (s.ac ac)) he hw⟩,
    ⟨_, 0, byteGroup_ok (core := ibpCore) he hw⟩, ⟨_, ac, byteGroup_ok (core := ildbCore) he hw⟩,
    ⟨_, ac, byteGroup_ok (core := fun s => idpbCore s (s.ac ac)) he hw⟩,
    ⟨_, ac, byteGroup_ok (core := fun s => adjbpCore s (s.ac ac)) he hw⟩⟩

theorem exec_reachingInstrs (he : effAddr s a = .ok e) (hptr : Claims.PointerAt s e w0 bp) :
    ∀ row ∈ Claims.reachingInstrs ac a bp, ∃ k, exec row.1 s = retire s (withByteWord s row.2 k) (storeByte ac e) := by
  simp only [Claims.reachingInstrs, List.forall_mem_cons, List.not_mem_nil, false_imp_iff, implies_true, and_true]
  exact ⟨⟨_, exec_ldb_of_pointerAt he hptr⟩, ⟨_, exec_dpb_of_pointerAt he hptr⟩, ⟨_, exec_ildb_of_pointerAt he hptr⟩,
    ⟨_, exec_idpb_of_pointerAt he hptr⟩⟩

theorem exec_depositInstrs (he : effAddr s a = .ok e) (hptr : Claims.PointerAt s e w0 bp) :
    ∀ row ∈ Claims.depositInstrs ac a bp, ∃ r : MemAddr → Word → CoreOutcome ByteResult,
      exec row.1 s = retire s (withByteWord s row.2 fun x w => withByteWrite s x (r x w)) (storeByte ac e) := by
  simp only [Claims.depositInstrs, List.forall_mem_cons, List.not_mem_nil, false_imp_iff, implies_true, and_true]
  exact ⟨⟨_, exec_dpb_of_pointerAt he hptr⟩, ⟨_, exec_idpb_of_pointerAt he hptr⟩⟩

end routed

end Sys2Proof.Machine

/-! SUPPORT. ADJBP (46_byte_pointer.md R515): the quotient and remainder of the byte count as the words to move by and the
new P, and the three ends of the operation. -/

namespace Sys2Proof.Machine

section adjust
variable {bp : Bp} {n q r : Int}

/-! ## Words to move by and the new P -/

/-- The floor of a quotient by a divisor that is not positive. -/
theorem floor_div_of_nonpos (v : Int) {b : Int} (hb : b ≤ 0) : ⌊(v : ℚ) / b⌋ = v.fdiv b := by
  obtain ⟨k, rfl⟩ : ∃ k : Nat, b = -k := ⟨(-b).toNat, by omega⟩
  rw [← Int.neg_fdiv_neg, neg_neg, Int.fdiv_eq_ediv_of_nonneg _ (Int.natCast_nonneg k), ← Rat.floor_intCast_div_natCast]
  push_cast
  rw [div_neg, neg_div]

theorem adjustQ_eq (hdiv : n + bytesLeft bp = q * bytesPerWord bp + r) (hr : 1 ≤ r) (hbpw : r ≤ bytesPerWord bp) :
    adjustQ bp n = q := by
  rw [adjustQ, hdiv, Int.fdiv_eq_ediv_of_nonneg _ (by omega), add_sub_assoc, add_comm,
    Int.add_mul_ediv_right _ _ (by omega), Int.ediv_eq_zero_of_lt (by omega) (by omega), zero_add]

theorem adjustP_eq (hdiv : n + bytesLeft bp = q * bytesPerWord bp + r) (hr : 1 ≤ r) (hbpw : r ≤ bytesPerWord bp) :
    adjustP bp n = 36 - r * bp.s - (36 - (bp.p : Int)) % bp.s := by
  rw [adjustP, adjustQ_eq hdiv hr hbpw, hdiv, add_sub_cancel_left]

/-- The bytes of a word and the residue fit in its 36 bits. -/
theorem adjusted_bounds (hs : bp.s ≠ 0) (hr : 1 ≤ r) (hbpw : r ≤ bytesPerWord bp) :
    0 ≤ 36 - r * bp.s - (36 - (bp.p : Int)) % bp.s ∧ 36 - r * bp.s - (36 - (bp.p : Int)) % bp.s < 64 := by
  have hpos : (0 : Int) < bp.s := by omega
  have hres : 0 ≤ (36 - (bp.p : Int)) % bp.s := Int.emod_nonneg _ hpos.ne'
  have hleft : bytesLeft bp * bp.s + (36 - (bp.p : Int)) % bp.s = 36 - bp.p := Int.ediv_mul_add_emod _ _
  have hright : ((bp.p / bp.s : Nat) : Int) * bp.s ≤ bp.p := by exact_mod_cast Nat.div_mul_le_self bp.p bp.s
  have hlow : 0 ≤ r * bp.s := by positivity
  have hhigh : r * bp.s ≤ bytesLeft bp * bp.s + (bp.p / bp.s : Nat) * bp.s := by
    rw [← add_mul]
    exact Int.mul_le_mul_of_nonneg_right hbpw hpos.le
  omega

/-- R504, R515: every P a one-word global is adjusted to has a code. -/
theorem owgTable_adjusted : ∀ row ∈ Claims.owgTable,
    ∀ r ∈ Finset.Icc (1 : Int) ((36 - (row.2.1 : Int)) / row.2.2 + (row.2.1 / row.2.2 : Nat)),
    ∃ next ∈ Claims.owgTable, next.2.2 = row.2.2 ∧
      next.2.1 = (36 - r * row.2.2 - (36 - (row.2.1 : Int)) % row.2.2).toNat := by decide

theorem usable_adjusted (h : bp.Usable) (hs : bp.s ≠ 0) (hr : 1 ≤ r) (hbpw : r ≤ bytesPerWord bp) :
    Bp.Usable { bp with p := (36 - r * bp.s - (36 - (bp.p : Int)) % bp.s).toNat } where
  p_lt := by
    have := adjusted_bounds hs hr hbpw
    dsimp only
    omega
  s_lt := h.s_lt
  wellFormed := h.wellFormed
  coded hform := by
    obtain ⟨code, hcode⟩ := h.coded hform
    obtain ⟨⟨code', _, _⟩, hmem, rfl, rfl⟩ := owgTable_adjusted _ hcode r (Finset.mem_Icc.mpr ⟨hr, hbpw⟩)
    exact ⟨code', hmem⟩

theorem adjustedField_eq (hdiv : n + bytesLeft bp = q * bytesPerWord bp + r) (hr : 1 ≤ r) (hbpw : r ≤ bytesPerWord bp) :
    adjustedField bp n = positionField { bp with p := (36 - r * bp.s - (36 - (bp.p : Int)) % bp.s).toNat } := by
  rw [adjustedField, if_neg (by omega), adjustP_eq hdiv hr hbpw]

/-! ## The words (R509) -/

theorem samePointer_eq {v1 w1 : Word} (h1 : bp.form = .twl ∨ bp.form = .twg → v1 = w1) (w0 : Word) :
    samePointer bp w0 v1 = (w0, if bp.form = .twl ∨ bp.form = .twg then some w1 else none) := by
  unfold samePointer
  cases hf : bp.form with
  | twl => rw [h1 (.inl hf), if_pos (.inl rfl)]
  | twg => rw [h1 (.inr hf), if_pos (.inr rfl)]
  | _ => rfl

theorem isWrittenBack_adjustPointer (h : ¬ (bp.form = .owgBad ∨ bp.form = .twBad)) (n : Int) (w0 w1 : Word) :
    Claims.IsWrittenBack bp (adjustedField bp n).toNat (Claims.movedY bp (adjustQ bp n)) w0 w1
      (adjustPointer bp n w0 w1).1 (adjustPointer bp n w0 w1).2 := by
  rw [adjustPointer, advanceY_eq_movedY]
  exact isWrittenBack_encode2 (bp' := { bp with y := Claims.movedY bp (adjustQ bp n) }) h rfl _ w0 w1

/-- The second word matters to a two-word pointer only. -/
theorem adjustPointer_congr {v1 w1 : Word} (h1 : bp.form = .twl ∨ bp.form = .twg → v1 = w1) (n : Int) (w0 : Word) :
    adjustPointer bp n w0 v1 = adjustPointer bp n w0 w1 :=
  encode2_congr (bp := { bp with y := advanceY bp (adjustQ bp n) }) _ h1

end adjust

/-! ## The ends of the operation -/

section ends
variable {s : State} {ac : AcNum} {a : AddrSpec} {e : Half} {w0 w1 : Word} {bp : Bp}

theorem exec_adjbp_of_pointerAt (he : effAddr s a = .ok e) (hptr : Claims.PointerAt s e w0 bp) :
    exec (.adjbp ac a) s = retire s
      (if bp.s = 0 then .done ⟨none, none, some (samePointer bp w0 ((secondWord s e).toOption.getD 0))⟩ .none
      else if bytesPerWord bp = 0 then .noDivide .divf
      else .done ⟨none, none, some (adjustPointer bp (s36 (s.ac ac)) w0 ((secondWord s e).toOption.getD 0))⟩ .none)
      (storeByte ac e) :=
  byteGroup_of_pointerAt (core := fun s => adjbpCore s (s.ac ac)) he hptr rfl

theorem exec_adjbp_sizeZero (he : effAddr s a = .ok e) (hptr : Claims.PointerAt s e w0 bp)
    (h1 : Claims.secondIs s e w1) (hs : bp.s = 0) :
    exec (.adjbp ac a) s = Claims.ends s .none
      (Claims.pointerToAc ac w0 (if bp.form = .twl ∨ bp.form = .twg then some w1 else none)) := by
  rw [exec_adjbp_of_pointerAt he hptr, if_pos hs,
    samePointer_eq (secondWord_of_pointerAt hptr h1), retire_eq_ends]
  exact congrArg (Claims.ends s .none) (storeByteAc_eq_pointerToAc ac _)

theorem exec_adjbp_noDivide (he : effAddr s a = .ok e) (hptr : Claims.PointerAt s e w0 bp) (hs : bp.s ≠ 0)
    (hbpw : bytesPerWord bp = 0) : exec (.adjbp ac a) s = Claims.ends s Claims.noDivideSet Claims.nothing := by
  rw [exec_adjbp_of_pointerAt he hptr, if_neg hs, if_pos hbpw, retire_noDivide_eq_ends]

theorem exec_adjbp_adjusts (he : effAddr s a = .ok e) (hptr : Claims.PointerAt s e w0 bp)
    (h1 : Claims.secondIs s e w1) (hs : bp.s ≠ 0) (hbpw : bytesPerWord bp ≠ 0) :
    exec (.adjbp ac a) s = Claims.ends s .none (Claims.pointerToAc ac
      (adjustPointer bp (s.ac ac).toInt w0 w1).1 (adjustPointer bp (s.ac ac).toInt w0 w1).2) := by
  rw [exec_adjbp_of_pointerAt he hptr, if_neg hs, if_neg hbpw,
    adjustPointer_congr (secondWord_of_pointerAt hptr h1), retire_eq_ends]
  exact congrArg (Claims.ends s .none) (storeByteAc_eq_pointerToAc ac _)

end ends

end Sys2Proof.Machine

/-! PROOFS. The statements of 46_byte_pointer.md. -/

namespace Sys2Proof.Machine

/-- Settles O54: `canon` case by case, then BP_TRAP of whatever it decodes to. -/
theorem canonicalFormOfAPointer : Obligations.CanonicalFormOfAPointer := by
  intro cfg w0 m1
  simp only [← pField_eq_field, ← sField_eq_field, ofNat_field, BitVec.setWidth_eq]
  refine ⟨canon_owl, fun hx _ _ => canon_owg hx, canon_owgBad, fun hx hp hb => ⟨?_, ?_⟩, ?_⟩
  · rintro info rfl
    exact canon_twoWord hx hp hb
  · rintro w1 rfl
    rw [canon_twoWord hx hp hb]
    exact ⟨fun h => congrArg _ (canonTwoWord_twl _ _ h), fun h => congrArg _ (canonTwoWord_twg _ _ h),
      fun h => congrArg _ (canonTwoWord_twBad _ _ h)⟩
  · intro bp hbp
    exact ⟨bpTraps_malformed _, bpTraps_sized _, fun hstd => hstd ▸ bpTraps_standard (canon_lt hbp).1⟩

/-- Settles O55, in the order in which an operation of R604 can stop. -/
theorem malformedPointersTrapFirst : Obligations.MalformedPointersTrapFirst := by
  intro ac a s e w0 he hw
  refine ⟨fun info herr i hi => ?_, fun bp hbp htrap i hi => ?_, fun bp hbp htrap row hrow => ?_,
    fun bp hptr row hrow x w hx hword hfails => ?_, fun hnone hx hp hb => ?_⟩
  · obtain ⟨k, ac', hexec⟩ := exec_byteInstrs he hw i hi
    rw [hexec, withPointer_error herr]
    rfl
  · obtain ⟨k, ac', hexec⟩ := exec_byteInstrs he hw i hi
    rw [hexec, withPointer_traps hbp htrap]
    rfl
  · obtain ⟨k, hexec⟩ := exec_reachingInstrs he ⟨hw, hbp, htrap⟩ row hrow
    refine ⟨fun info hfault => ?_, fun x hx hnone => ?_, fun hcycle => ?_⟩
    · rw [hexec, withByteWord_fault hfault]
      rfl
    · rw [hexec, withByteWord_unwritten hx hnone]
      rfl
    · rw [hexec, withByteWord_cycle hcycle]
      rfl
  · obtain ⟨r, hexec⟩ := exec_depositInstrs he hptr row hrow
    rw [hexec, withByteWord_ok hx hword, withByteWrite_fails hfails]
    rfl
  · rw [← pField_eq_field] at hp
    rw [canon_twoWord hx hp hb, secondWord_unwritten hnone]
    rfl

/-- Settles O56: the byte bit by bit, and its address by the form. -/
theorem ldbAndDpbMoveTheByte : Obligations.LdbAndDpbMoveTheByte := by
  intro ac a s e w0 bp x w he hptr hx hw
  refine ⟨⟨_, isByte_extractByte w bp.p bp.s, ?_⟩, fun hok => ⟨_, isDeposit_depositByte w (s.ac ac) bp.p bp.s, ?_⟩,
    fun hlocal => ?_, fun howg => ?_, fun htwg hi => ?_⟩
  · rw [exec_ldb_of_pointerAt he hptr, withByteWord_ok hx hw]
    rfl
  · rw [exec_dpb_of_pointerAt he hptr, withByteWord_ok hx hw, withByteWrite_ok hok]
    rfl
  · rw [byteAddr_local hlocal] at hx
    cases he' : effAddr s ⟨bp.i, bp.x, bp.y.setWidth 18⟩ with
    | ok e' =>
      rw [he'] at hx
      exact ⟨e', rfl, (Except.ok.inj hx).symm⟩
    | error err =>
      rw [he'] at hx
      cases hx
  · exact Except.ok.inj (hx.symm.trans (byteAddr_owg howg))
  · exact Except.ok.inj (hx.symm.trans (byteAddr_twg_direct htwg hi))

/-- Settles O57: the words of the next byte's pointer, and the end of the operation that stores them. -/
theorem ibpAdvancesThePointer : Obligations.IbpAdvancesThePointer := by
  intro a s e w0 w1 bp he hptr h1
  obtain ⟨hposition, hback⟩ := isWrittenBack_incremented (usable_of_pointerAt hptr) w0 w1
  refine ⟨_, _, _, hposition, hback, ?_⟩
  rw [exec_ibp_of_pointerAt he hptr, encPointer_of_pointerAt hptr h1 (incremented_form bp), retire_eq_ends]
  exact congrArg (Claims.ends s .none) (funext (storePointer_eq_pointerTo e _))

/-- Settles O58: the words of the next byte's pointer, the byte through it, and the ends of the two operations. -/
theorem ildbAndIdpbAdvanceThenMove : Obligations.IldbAndIdpbAdvanceThenMove := by
  intro ac a s e w0 w1 bp x w he hptr h1 hx hw
  obtain ⟨hposition, hback⟩ := isWrittenBack_incremented (usable_of_pointerAt hptr) w0 w1
  refine ⟨_, _, _, hposition, hback, ⟨_, isByte_extractByte w _ bp.s, ?_⟩,
    fun hok => ⟨_, isDeposit_depositByte w (s.ac ac) _ bp.s, ?_⟩⟩
  · rw [exec_ildb_of_pointerAt he hptr, withByteWord_ok hx hw,
      encPointer_of_pointerAt hptr h1 (incremented_form bp), retire_eq_ends]
    exact congrArg (Claims.ends s .none) (funext fun u => congrArg _ (storePointer_eq_pointerTo e _ u))
  · rw [exec_idpb_of_pointerAt he hptr, withByteWord_ok hx hw, withByteWrite_ok hok,
      encPointer_of_pointerAt hptr h1 (incremented_form bp), retire_eq_ends]
    exact congrArg (Claims.ends s .none) (funext fun u => storePointer_eq_pointerTo e _ _)

/-- Settles O59: the three ends of the operation; where bytes fit in a word, its quotient is the Q the statement names, and
where bpw is negative, the floor it names. -/
theorem adjbpAdjustsThePointer : Obligations.AdjbpAdjustsThePointer := by
  intro ac a s e w0 w1 bp hac he hptr h1 left bpw res n
  have husable := usable_of_pointerAt hptr
  refine ⟨exec_adjbp_sizeZero he hptr h1, exec_adjbp_noDivide he hptr, fun hs hpos q r hdiv hr hrbpw => ?_,
    fun hs hneg => ?_⟩
  · refine ⟨(adjusted_bounds hs hr hrbpw).1, (adjustedField bp n).toNat, _, _, ?_, ?_,
      exec_adjbp_adjusts he hptr h1 hs hpos.ne'⟩
    · rw [adjustedField_eq hdiv hr hrbpw]
      exact isPosition_positionField (usable_adjusted husable hs hr hrbpw) rfl rfl
    · rw [← adjustQ_eq hdiv hr hrbpw]
      exact isWrittenBack_adjustPointer husable.wellFormed n w0 w1
  · refine ⟨(adjustedField bp n).toNat, _, _, ?_, exec_adjbp_adjusts he hptr h1 hs hneg.ne⟩
    rw [floor_div_of_nonpos _ hneg.le]
    exact isWrittenBack_adjustPointer husable.wellFormed n w0 w1

/-- Settles O60: the address by the form. -/
theorem byteAddressOfEveryForm : Obligations.ByteAddressOfEveryForm := by
  intro s bp
  refine ⟨fun hlocal => ⟨fun e he => ?_, fun err herr => ?_⟩, byteAddr_owg, byteAddr_twg_direct⟩
  · rw [byteAddr_local hlocal, he]
    rfl
  · rw [byteAddr_local hlocal, herr]
    rfl

end Sys2Proof.Machine

/-! SUPPORT. The flags in what the operations of the core report (60_exceptions.md R602): each reports at most the flags its
rule names, and no quirk function of R368 is asked under FIDELITY = Clean. -/

namespace Sys2Proof

/-- R602: `m` holds every flag of `d`. -/
def Flags.Within (m d : Flags) : Prop := d.union m = m

theorem Flags.within_none (m : Flags) : m.Within .none := rfl

theorem Flags.within_union {m a b : Flags} (ha : m.Within a) (hb : m.Within b) : m.Within (a.union b) := by
  rw [Within, Machine.Flags.union_assoc, hb, ha]

theorem Flags.Within.trans {m n d : Flags} (hd : m.Within d) (hm : n.Within m) : n.Within d := by
  rw [Within, ← hm, ← Machine.Flags.union_assoc, hd]

theorem Flags.within_ite {m a b : Flags} {c : Prop} [Decidable c] (ha : m.Within a) (hb : m.Within b) :
    m.Within (if c then a else b) := by
  split
  · exact ha
  · exact hb

theorem Flags.within_when {m f : Flags} (b : Bool) (h : m.Within f) : m.Within (.when b f) := within_ite h rfl

namespace Machine

open Claims (fixedFlags overflowSet noDivideSet floatNoDivideSet floatOverflowSet floatUnderflowSet)

theorem CoreOutcome.Reports.within_trans {α : Type} {o : CoreOutcome α} {m n : Flags} (h : o.Reports m.Within)
    (hm : n.Within m) : o.Reports n.Within := by
  cases o with
  | done r d => exact Flags.Within.trans h hm
  | noDivide d => exact Flags.Within.trans h hm
  | noStore d => exact Flags.Within.trans h hm
  | bpTrap | memFault | noAnswer => trivial

/-! ## The flag sets of the rules -/

theorem addFlags_within (c0 c1 : Bool) : (fixedFlags true true true).Within (addFlags c0 c1) := by
  cases c0 <;> cases c1 <;> rfl

theorem negMaxnegFlags_within (cfg : Params) (c0 : Bool) : (fixedFlags c0 true true).Within (negMaxnegFlags cfg) :=
  Flags.within_union rfl (Flags.within_when _ rfl)

theorem rangeFlags_within (emax : Nat) (e : Int) : floatUnderflowSet.Within (rangeFlags emax e) :=
  Flags.within_ite rfl (Flags.within_ite rfl rfl)

theorem fres_within (φ : Fmt) (x : Exact) (rnd : Bool) : floatUnderflowSet.Within (fres φ x rnd).2 := by
  by_cases hn : x.num = 0
  · rw [fres_of_num_eq_zero hn]
    exact Flags.within_none _
  · rw [fres_of_num_ne_zero hn]
    exact rangeFlags_within ..

/-! ## Adder and subtractor -/

section operations
variable {cfg : Params}

theorem addCore_within (a b : Word) : (addCore a b).Reports (fixedFlags true true true).Within := addFlags_within ..
theorem subCore_within (a b : Word) : (subCore a b).Reports (fixedFlags true true true).Within := addFlags_within ..
theorem incCore_within (x : Word) : (incCore x).Reports (fixedFlags true true true).Within := addFlags_within ..
theorem decCore_within (x : Word) : (decCore x).Reports (fixedFlags true true true).Within := addFlags_within ..

theorem daddCore_within (a b : Word × Word) : (daddCore a b).Reports (fixedFlags true true true).Within :=
  addFlags_within ..

theorem dsubCore_within (a b : Word × Word) : (dsubCore a b).Reports (fixedFlags true true true).Within :=
  addFlags_within ..

theorem negCore_within (x : Word) : (negCore cfg x).Reports (fixedFlags true true true).Within :=
  Flags.within_ite rfl (Flags.within_ite (negMaxnegFlags_within cfg true) rfl)

/-- R207: unlike a negation, a magnitude never carries out of the sign bit. -/
theorem magCore_within (x : Word) : (magCore cfg x).Reports (fixedFlags false true true).Within :=
  CoreOutcome.reports_ite (fun _ => Flags.within_ite (negMaxnegFlags_within cfg false) rfl) (Flags.within_none _)

theorem dnegCore_within (x : Word × Word) : (dnegCore cfg x).Reports (fixedFlags true true true).Within := by
  unfold dnegCore
  cases cfg.dmovnFlags with
  | silent => exact Flags.within_none _
  | asNegate => exact Flags.within_ite rfl (Flags.within_ite (negMaxnegFlags_within cfg true) rfl)

/-! ## Multiplies, divides, booleans and shifts -/

theorem imulCore_within (a b : Word) : (imulCore a b).Reports overflowSet.Within := Flags.within_when _ rfl
theorem mulCore_within (a b : Word) : (mulCore a b).Reports overflowSet.Within := Flags.within_when _ rfl
theorem dmulCore_within (a b : Word × Word) : (dmulCore a b).Reports overflowSet.Within := Flags.within_when _ rfl

theorem idivCore_within (a b : Word) : (idivCore cfg a b).Reports noDivideSet.Within := by
  refine CoreOutcome.reports_ite (fun _ => rfl) (CoreOutcome.reports_ite (fun _ => ?maxneg) (Flags.within_none _))
  cases cfg.idivMaxneg with
  | strict => exact rfl
  | permit => exact Flags.within_none _

theorem divCore_within (a : Word × Word) (b : Word) : (divCore a b).Reports noDivideSet.Within :=
  CoreOutcome.reports_ite (fun _ => rfl) (Flags.within_none _)

theorem ddivCore_within (a : (Word × Word) × (Word × Word)) (b : Word × Word) :
    (ddivCore a b).Reports noDivideSet.Within :=
  CoreOutcome.reports_ite (fun _ => rfl) (Flags.within_none _)

theorem boolCore_within (g : Word → Word → Word) (a b : Word) : (boolCore g a b).Reports Flags.none.Within := rfl

theorem ashCore_within (x : Word) (c : Int) : (ashCore x c).Reports overflowSet.Within :=
  CoreOutcome.reports_ite (fun _ => Flags.within_when _ rfl) (Flags.within_none _)

theorem ashcCore_within (d : Word × Word) (c : Int) : (ashcCore d c).Reports overflowSet.Within :=
  CoreOutcome.reports_ite (fun _ => Flags.within_none _)
    (CoreOutcome.reports_ite (fun _ => Flags.within_when _ rfl) (Flags.within_none _))

theorem rotCore_within (x : Word) (c : Int) : (rotCore x c).Reports Flags.none.Within := rfl

theorem lshCore_within (x : Word) (c : Int) : (lshCore x c).Reports Flags.none.Within :=
  CoreOutcome.reports_ite (fun _ => rfl) rfl

theorem rotcCore_within (d : Word × Word) (c : Int) : (rotcCore d c).Reports Flags.none.Within := rfl

theorem lshcCore_within (d : Word × Word) (c : Int) : (lshcCore d c).Reports Flags.none.Within :=
  CoreOutcome.reports_ite (fun _ => rfl) rfl

/-! ## Floating point -/

theorem resF_within {x : Exact} {rnd : Bool} : (resF x rnd).Reports floatUnderflowSet.Within := fres_within ..

theorem resPair_within {φ : Fmt} {x : Exact} {rnd : Bool} : (resPair φ x rnd).Reports floatUnderflowSet.Within :=
  fres_within ..

/-- R415: the exponent of an integer never leaves the F range. -/
theorem fltrCore_within (b : Word) : (fltrCore b).Reports Flags.none.Within := by
  rw [fltrCore_eq]
  exact Flags.within_none _

/-- R471, R472, R474: neither does the exponent of an integer or of an F value leave the G range. -/
theorem gfltrCore_within (b : Word) : (gfltrCore b).Reports Flags.none.Within := by
  obtain ⟨w, -, hdone⟩ := gfltrCore_isResult b
  rw [hdone]
  exact Flags.within_none _

theorem dgfltrCore_within (d : Word × Word) : (dgfltrCore d).Reports Flags.none.Within := by
  obtain ⟨w, -, hdone⟩ := dgfltrCore_isResult d
  rw [hdone]
  exact Flags.within_none _

theorem gdbleCore_within (b : Word) : (gdbleCore b).Reports Flags.none.Within := by
  obtain ⟨w, -, hdone⟩ := gdbleCore_isResult b
  rw [hdone]
  exact Flags.within_none _

theorem ufaCore_within (a b : Word) : (ufaCore a b).Reports floatOverflowSet.Within :=
  CoreOutcome.reports_ite (fun _ => Flags.within_none _) (Flags.within_when _ rfl)

theorem fixCore_within (b : Word) : (fixCore b).Reports overflowSet.Within :=
  CoreOutcome.reports_ite (fun _ => rfl) (Flags.within_none _)

theorem fixrCore_within (b : Word) : (fixrCore b).Reports overflowSet.Within :=
  CoreOutcome.reports_ite (fun _ => rfl) (Flags.within_none _)

theorem gfixCore_within (b : Word × Word) : (gfixCore b).Reports overflowSet.Within :=
  CoreOutcome.reports_ite (fun _ => rfl) (Flags.within_none _)

theorem gfixrCore_within (b : Word × Word) : (gfixrCore b).Reports overflowSet.Within :=
  CoreOutcome.reports_ite (fun _ => rfl) (Flags.within_none _)

theorem dgfixCore_within (b : Word × Word) : (dgfixCore b).Reports overflowSet.Within :=
  CoreOutcome.reports_ite (fun _ => rfl) (Flags.within_none _)

theorem dgfixrCore_within (b : Word × Word) : (dgfixrCore b).Reports overflowSet.Within :=
  CoreOutcome.reports_ite (fun _ => rfl) (Flags.within_none _)

/-- A floating divide reports what its no-divide test does or what FRES does. -/
theorem reports_divide {α : Type} {o : CoreOutcome α} {c : Prop} [Decidable c] (ho : o.Reports floatUnderflowSet.Within) :
    (if c then .noDivide .fdivf else o).Reports (floatUnderflowSet.union floatNoDivideSet).Within :=
  CoreOutcome.reports_ite (fun _ => rfl) (ho.within_trans rfl)

theorem gfdvCore_within (a b : Word × Word) :
    (gfdvCore a b).Reports (floatUnderflowSet.union floatNoDivideSet).Within :=
  reports_divide resPair_within

section clean
variable (hclean : cfg.fidelity = .clean)
include hclean

/-- R368: under FIDELITY = Clean an operation with a quirk band has the outcome it has outside the band. -/
theorem reports_of_clean {α : Type} {Q : Flags → Prop} {band : Prop} [Decidable band] {o o' : CoreOutcome α}
    (ho : o'.Reports Q) : (if cfg.fidelity = .hardware ∧ band then o else o').Reports Q :=
  CoreOutcome.reports_ite (fun h => by simp [hclean] at h) ho

theorem fmpCore_within (a b : Word) : (fmpCore cfg a b).Reports floatUnderflowSet.Within :=
  reports_of_clean hclean resF_within

theorem fdvCore_within (rnd : Bool) (a b : Word) :
    (fdvCore cfg rnd a b).Reports (floatUnderflowSet.union floatNoDivideSet).Within :=
  reports_divide (reports_of_clean hclean resF_within)

theorem dfdvCore_within (a b : Word × Word) :
    (dfdvCore cfg a b).Reports (floatUnderflowSet.union floatNoDivideSet).Within :=
  reports_divide (reports_of_clean hclean resPair_within)

theorem gfscCore_within (d : Word × Word) (c : Int) : (gfscCore cfg d c).Reports floatUnderflowSet.Within :=
  reports_of_clean hclean resPair_within

end clean

end operations

/-! ## Byte pointers -/

section byte
variable {s : State}

theorem ldbCore_within (w0 : Word) (m1 : Except MemInfo Word) : (ldbCore s w0 m1).Reports Flags.none.Within :=
  reports_withPointer fun _ => reports_withByteWord fun _ _ => rfl

theorem dpbCore_within (b w0 : Word) (m1 : Except MemInfo Word) : (dpbCore s b w0 m1).Reports Flags.none.Within :=
  reports_withPointer fun _ => reports_withByteWord fun _ _ => reports_withByteWrite rfl

theorem ildbCore_within (w0 : Word) (m1 : Except MemInfo Word) : (ildbCore s w0 m1).Reports Flags.none.Within :=
  reports_withPointer fun _ => reports_withByteWord fun _ _ => rfl

theorem idpbCore_within (b w0 : Word) (m1 : Except MemInfo Word) : (idpbCore s b w0 m1).Reports Flags.none.Within :=
  reports_withPointer fun _ => reports_withByteWord fun _ _ => reports_withByteWrite rfl

theorem ibpCore_within (w0 : Word) (m1 : Except MemInfo Word) : (ibpCore s w0 m1).Reports Flags.none.Within :=
  reports_withPointer fun _ => rfl

theorem adjbpCore_within (count w0 : Word) (m1 : Except MemInfo Word) :
    (adjbpCore s count w0 m1).Reports noDivideSet.Within :=
  reports_withPointer fun _ =>
    CoreOutcome.reports_ite (fun _ => Flags.within_none _)
      (CoreOutcome.reports_ite (fun _ => rfl) (Flags.within_none _))

end byte

end Machine

end Sys2Proof

/-! PROOFS. The statements of 60_exceptions.md. -/

namespace Sys2Proof.Machine

/-- R602, R603: under FIDELITY = Clean an instruction adds at most the flags of its row to the register. -/
theorem exec_reports_mayReport (i : Instr) (s : State) (hclean : s.cfg.fidelity = .clean) :
    OnlyAddsFlags (Claims.mayReport i).Within fun f => exec i (s.withFlags f) := by
  cases i with
  | add | addi | addm | addb => exact onlyAddsFlags_arithGroup addCore_within
  | sub | subi | subm | subb => exact onlyAddsFlags_arithGroup subCore_within
  | movn | movni | movnm | movns => exact onlyAddsFlags_moveGroup (core := negCore s.cfg) negCore_within
  | movm | movmm | movms => exact onlyAddsFlags_moveGroup (core := magCore s.cfg) magCore_within
  | movmi ac a =>
    exact onlyAddsFlags_withE fun e =>
      onlyAddsFlags_retire (o := .done (immWord e) .none) (Flags.within_none _) (ignoresFlags_setAc ac)
  | aoj | aojl | aoje | aojle | aoja | aojge | aojn | aojg => exact onlyAddsFlags_jumpGroup incCore_within
  | soj | sojl | soje | sojle | soja | sojge | sojn | sojg => exact onlyAddsFlags_jumpGroup decCore_within
  | aos | aosl | aose | aosle | aosa | aosge | aosn | aosg => exact onlyAddsFlags_skipGroup incCore_within
  | sos | sosl | sose | sosle | sosa | sosge | sosn | sosg => exact onlyAddsFlags_skipGroup decCore_within
  | dadd => exact onlyAddsFlags_doubleGroup daddCore_within
  | dsub => exact onlyAddsFlags_doubleGroup dsubCore_within
  | dmovn => exact onlyAddsFlags_pairFromMemGroup (core := dnegCore s.cfg) dnegCore_within
  | dmovnm ac a =>
    exact onlyAddsFlags_withE fun e =>
      onlyAddsFlags_retire (dnegCore_within (acPair s ac)) (ignoresFlags_storeMemPair e)
  | imul | imuli | imulm | imulb => exact onlyAddsFlags_arithGroup imulCore_within
  | mul | muli | mulm | mulb => exact onlyAddsFlags_pairGroup mulCore_within
  | dmul ac a =>
    exact onlyAddsFlags_withE fun _ => onlyAddsFlags_withPair fun b =>
      onlyAddsFlags_retire (dmulCore_within (acPair s ac) b) (ignoresFlags_storeQuad ac)
  | idiv | idivi | idivm | idivb => exact onlyAddsFlags_pairGroup (core := idivCore s.cfg) idivCore_within
  | div | divi | divm | divb => exact onlyAddsFlags_divGroup divCore_within
  | ddiv ac a =>
    exact onlyAddsFlags_withE fun _ => onlyAddsFlags_withPair fun b =>
      onlyAddsFlags_retire (ddivCore_within (acQuad s ac) b) (ignoresFlags_storeQuad ac)
  | setz | setzi | setzm | setzb | and | andi | andm | andb | andca | andcai | andcam | andcab
  | setm | setmi | setmm | setmb | andcm | andcmi | andcmm | andcmb | seta | setai | setam | setab
  | xor | xori | xorm | xorb | ior | iori | iorm | iorb | andcb | andcbi | andcbm | andcbb
  | eqv | eqvi | eqvm | eqvb | setca | setcai | setcam | setcab | orca | orcai | orcam | orcab
  | setcm | setcmi | setcmm | setcmb | orcm | orcmi | orcmm | orcmb | orcb | orcbi | orcbm | orcbb
  | seto | setoi | setom | setob => exact onlyAddsFlags_arithGroup (boolCore_within _)
  | ash => exact onlyAddsFlags_countGroup ashCore_within
  | rot => exact onlyAddsFlags_countGroup rotCore_within
  | lsh => exact onlyAddsFlags_countGroup lshCore_within
  | ashc => exact onlyAddsFlags_countPairGroup ashcCore_within
  | rotc => exact onlyAddsFlags_countPairGroup rotcCore_within
  | lshc => exact onlyAddsFlags_countPairGroup lshcCore_within
  | fad | fadm | fadb | fadr | fadri | fadrm | fadrb
  | fsb | fsbm | fsbb | fsbr | fsbri | fsbrm | fsbrb
  | fmpr | fmpri | fmprm | fmprb => exact onlyAddsFlags_arithGroup fun _ _ => resF_within
  | fmp | fmpm | fmpb => exact onlyAddsFlags_arithGroup (core := fmpCore s.cfg) (fmpCore_within hclean)
  | fdv | fdvm | fdvb => exact onlyAddsFlags_arithGroup (core := fdvCore s.cfg false) (fdvCore_within hclean _)
  | fdvr | fdvri | fdvrm | fdvrb => exact onlyAddsFlags_arithGroup (core := fdvCore s.cfg true) (fdvCore_within hclean _)
  | ufa ac a =>
    exact onlyAddsFlags_withE fun _ => onlyAddsFlags_withWord fun b =>
      onlyAddsFlags_retire (ufaCore_within (s.ac ac) b) (ignoresFlags_setAc (ac + 1))
  | fix => exact onlyAddsFlags_unaryGroup fixCore_within
  | fixr => exact onlyAddsFlags_unaryGroup fixrCore_within
  | fltr => exact onlyAddsFlags_unaryGroup fltrCore_within
  | fsc => exact onlyAddsFlags_countGroup fun _ _ => resF_within
  | dfad =>
    exact onlyAddsFlags_doubleGroup (core := floatAddCore .d s.cfg.doubleRound) fun _ _ => resPair_within
  | dfsb =>
    exact onlyAddsFlags_doubleGroup (core := floatSubCore .d s.cfg.doubleRound) fun _ _ => resPair_within
  | dfmp =>
    exact onlyAddsFlags_doubleGroup (core := floatMulCore .d s.cfg.doubleRound) fun _ _ => resPair_within
  | dfdv => exact onlyAddsFlags_doubleGroup (core := dfdvCore s.cfg) (dfdvCore_within hclean)
  | gfad | gfsb | gfmp => exact onlyAddsFlags_ifGfloat (onlyAddsFlags_doubleGroup fun _ _ => resPair_within)
  | gfdv => exact onlyAddsFlags_ifGfloat (onlyAddsFlags_doubleGroup gfdvCore_within)
  | gsngl => exact onlyAddsFlags_ifGfloat (onlyAddsFlags_narrowGroup fun _ => resF_within)
  | gfix => exact onlyAddsFlags_ifGfloat (onlyAddsFlags_narrowGroup gfixCore_within)
  | gfixr => exact onlyAddsFlags_ifGfloat (onlyAddsFlags_narrowGroup gfixrCore_within)
  | gdble => exact onlyAddsFlags_ifGfloat (onlyAddsFlags_widenGroup gdbleCore_within)
  | gfltr => exact onlyAddsFlags_ifGfloat (onlyAddsFlags_widenGroup gfltrCore_within)
  | dgfix => exact onlyAddsFlags_ifGfloat (onlyAddsFlags_pairFromMemGroup dgfixCore_within)
  | dgfixr => exact onlyAddsFlags_ifGfloat (onlyAddsFlags_pairFromMemGroup dgfixrCore_within)
  | dgfltr => exact onlyAddsFlags_ifGfloat (onlyAddsFlags_pairFromMemGroup dgfltrCore_within)
  | gfsc =>
    exact onlyAddsFlags_ifGfloat (onlyAddsFlags_countPairGroup (core := gfscCore s.cfg) (gfscCore_within hclean))
  | ibp => exact onlyAddsFlags_byteGroup ibpCore_withFlags ibpCore_within
  | ldb => exact onlyAddsFlags_byteGroup ldbCore_withFlags ldbCore_within
  | ildb => exact onlyAddsFlags_byteGroup ildbCore_withFlags ildbCore_within
  | dpb ac a =>
    exact onlyAddsFlags_byteGroup (core := fun s => dpbCore s (s.ac ac)) (fun f => dpbCore_withFlags f (s.ac ac))
      (dpbCore_within (s.ac ac))
  | idpb ac a =>
    exact onlyAddsFlags_byteGroup (core := fun s => idpbCore s (s.ac ac)) (fun f => idpbCore_withFlags f (s.ac ac))
      (idpbCore_within (s.ac ac))
  | adjbp ac a =>
    exact onlyAddsFlags_byteGroup (core := fun s => adjbpCore s (s.ac ac)) (fun f => adjbpCore_withFlags f (s.ac ac))
      (adjbpCore_within (s.ac ac))

/-- Settles O16: the delta an instruction adds lies within the flags of its row. -/
theorem flagsOfEveryInstruction : Obligations.FlagsOfEveryInstruction := by
  intro i s t hclean hexec
  obtain ⟨d, hd, hflags⟩ := (exec_reports_mayReport i s hclean).flags_of_next hexec
  exact ⟨d, hflags, hd⟩

end Sys2Proof.Machine

/-! SUPPORT. Where the stores of an operation go (30_encoding.md R158-R163, 46_byte_pointer.md R500, 70_reset_and_hazards.md
R713): each store writes only to the addresses its routing names, an accumulator being the word at its own address (R107). -/

namespace Sys2Proof.Machine

/-! ## Writing within a list of addresses -/

/-- Every word outside the addresses `D` reads in `t` as it does in `s`. -/
def OnlyWrites (D : List MemAddr) (s t : State) : Prop := ∀ x, x ∉ D → t.readWord x = s.readWord x

/-- R107: accumulators as the addresses of their words. -/
def acAddrs (acs : List AcNum) : List MemAddr := acs.map (·.setWidth 30)

theorem acAddr_mem_acAddrs {n : AcNum} {acs : List AcNum} : n.setWidth 30 ∈ acAddrs acs ↔ n ∈ acs := by
  simp only [acAddrs, List.mem_map, acAddr_inj, exists_eq_right]

variable {D : List MemAddr} {s t u v : State}

theorem OnlyWrites.refl : OnlyWrites D s s := fun _ _ => rfl

theorem OnlyWrites.trans (h : OnlyWrites D s u) (h' : OnlyWrites D u v) : OnlyWrites D s v :=
  fun x hx => (h' x hx).trans (h x hx)

theorem onlyWrites_setAc {n : AcNum} (w : Word) (hn : n.setWidth 30 ∈ D) : OnlyWrites D u (u.setAc n w) := by
  intro x hx
  rw [State.readWord_setAc, if_neg fun h : x = n.setWidth 30 => hx (h ▸ hn)]

theorem onlyWrites_writeWord {x : MemAddr} (w : Word) (hx : x ∈ D) : OnlyWrites D u (u.writeWord x w) := by
  intro y hy
  rw [State.readWord_writeWord, if_neg fun h : y = x => hy (h ▸ hx)]

/-! ## The addresses of a routing -/

/-- The addresses an instruction may store to: its destination accumulators' and its memory destinations. -/
def dests (i : Instr) (s : State) : List MemAddr := acAddrs (Claims.acDests i s) ++ Claims.memDests i s

/-- R158, R160: the addresses a mode stores to, for an operation whose results go to the accumulators `acs`. -/
def modeDests (m : Mode) (acs : List AcNum) (s : State) (a : AddrSpec) : List MemAddr :=
  match m with
  | .basic => acAddrs acs
  | .immediate => acAddrs acs
  | .memory => Claims.wordsAt s a 1
  | .both => acAddrs acs ++ Claims.wordsAt s a 1

/-- R161, R162: E, and AC when the AC field is not 0. -/
def selfDests (ac : AcNum) (s : State) (a : AddrSpec) : List MemAddr :=
  acAddrs (if ac = 0 then [] else [ac]) ++ Claims.wordsAt s a 1

/-- R161: the addresses a move mode stores to. -/
def moveDests (m : MoveMode) (ac : AcNum) (s : State) (a : AddrSpec) : List MemAddr :=
  match m with
  | .basic => acAddrs [ac]
  | .immediate => acAddrs [ac]
  | .memory => Claims.wordsAt s a 1
  | .self => selfDests ac s a

section stores
variable {ac : AcNum} {a : AddrSpec} {e : Half}

theorem wordsAt_ok (he : effAddr s a = .ok e) (n : Nat) :
    Claims.wordsAt s a n = if n = 2 then [loc e, nextLoc s.cfg e] else [loc e] := by
  simp only [Claims.wordsAt, he, nextLoc_eq_succAddr]

theorem loc_mem_wordsAt (he : effAddr s a = .ok e) (n : Nat) : loc e ∈ Claims.wordsAt s a n := by
  rw [wordsAt_ok he]
  split <;> exact List.mem_cons_self

theorem nextLoc_mem_wordsAt (he : effAddr s a = .ok e) : nextLoc s.cfg e ∈ Claims.wordsAt s a 2 := by
  rw [wordsAt_ok he, if_pos rfl]
  exact List.mem_cons_of_mem _ List.mem_cons_self

theorem onlyWrites_storePair (r : Word × Word) (h : acAddrs [ac, ac + 1] ⊆ D) : OnlyWrites D u (storePair ac r u) :=
  (onlyWrites_setAc _ (h (acAddr_mem_acAddrs.mpr (by simp)))).trans
    (onlyWrites_setAc _ (h (acAddr_mem_acAddrs.mpr (by simp))))

theorem onlyWrites_storeQuad (r : (Word × Word) × (Word × Word)) :
    OnlyWrites (acAddrs [ac, ac + 1, ac + 2, ac + 3]) u (storeQuad ac r u) := by
  have hnext : ac + 2 + 1 = ac + 3 := by rw [add_assoc]; rfl
  refine (onlyWrites_storePair r.1 ?_).trans (onlyWrites_storePair r.2 ?_)
  · exact List.map_subset _ (by simp)
  · rw [hnext]
    exact List.map_subset _ (by simp)

theorem onlyWrites_storeMemPair (r : Word × Word) (he : effAddr s a = .ok e) (hu : u.cfg = s.cfg)
    (h : Claims.wordsAt s a 2 ⊆ D) : OnlyWrites D u (storeMemPair e r u) := by
  rw [storeMemPair, hu]
  exact (onlyWrites_writeWord _ (h (loc_mem_wordsAt he 2))).trans (onlyWrites_writeWord _ (h (nextLoc_mem_wordsAt he)))

theorem onlyWrites_storeMode (m : Mode) (r : Word) (he : effAddr s a = .ok e) :
    OnlyWrites (modeDests m [ac] s a) u (storeMode m ac e r u) := by
  have hac : ac.setWidth 30 ∈ acAddrs [ac] := List.mem_cons_self
  have hmem := loc_mem_wordsAt he 1
  cases m with
  | basic => exact onlyWrites_setAc r hac
  | immediate => exact onlyWrites_setAc r hac
  | memory => exact onlyWrites_writeWord r hmem
  | both =>
    exact (onlyWrites_writeWord r (List.mem_append_right _ hmem)).trans (onlyWrites_setAc r (List.mem_append_left _ hac))

theorem onlyWrites_storeModePair (m : Mode) (r : Word × Word) (he : effAddr s a = .ok e) :
    OnlyWrites (modeDests m [ac, ac + 1] s a) u (storeModePair m ac e r u) := by
  have hmem := loc_mem_wordsAt he 1
  cases m with
  | basic => exact onlyWrites_storePair r (List.Subset.refl _)
  | immediate => exact onlyWrites_storePair r (List.Subset.refl _)
  | memory => exact onlyWrites_writeWord r.1 hmem
  | both =>
    exact (onlyWrites_writeWord r.1 (List.mem_append_right _ hmem)).trans
      (onlyWrites_storePair r (List.subset_append_left _ _))

theorem onlyWrites_storeSelf (r : Word) (he : effAddr s a = .ok e) :
    OnlyWrites (selfDests ac s a) u (storeSelf ac e r u) := by
  have hmem : loc e ∈ selfDests ac s a := List.mem_append_right _ (loc_mem_wordsAt he 1)
  unfold storeSelf
  split
  case isTrue => exact onlyWrites_writeWord r hmem
  case isFalse hac =>
    have hself : ac.setWidth 30 ∈ selfDests ac s a := by
      rw [selfDests, if_neg hac]
      exact List.mem_append_left _ List.mem_cons_self
    exact (onlyWrites_writeWord r hmem).trans (onlyWrites_setAc r hself)

theorem onlyWrites_storeMove (m : MoveMode) (r : Word) (he : effAddr s a = .ok e) :
    OnlyWrites (moveDests m ac s a) u (storeMove m ac e r u) := by
  have hac : ac.setWidth 30 ∈ acAddrs [ac] := List.mem_cons_self
  cases m with
  | basic => exact onlyWrites_setAc r hac
  | immediate => exact onlyWrites_setAc r hac
  | memory => exact onlyWrites_writeWord r (loc_mem_wordsAt he 1)
  | self => exact onlyWrites_storeSelf r he

end stores

/-! ## The ends of operations -/

/-- R713, R714: the words outside `D` read as before and the next PC is PC + 1. -/
def Framed (D : List MemAddr) (s t : State) : Prop := OnlyWrites D s t ∧ t.pc = s.pc + 1

theorem onlyWrites_retireTo {α : Type} {o : CoreOutcome α} {store : α → State → State} {next : α → Half}
    (hstore : ∀ r f u, o = .done r f → u.cfg = s.cfg → OnlyWrites D u (store r u))
    (h : retireTo s o store next = .next t) : OnlyWrites D s t := by
  obtain ⟨r, f, hdone, rfl⟩ | ⟨f, -, rfl⟩ := retireTo_next h
  · exact hstore r f (s.report f) hdone rfl
  · exact .refl

theorem framed_retire {α : Type} {o : CoreOutcome α} {store : α → State → State}
    (hstore : ∀ r f u, o = .done r f → u.cfg = s.cfg → OnlyWrites D u (store r u))
    (h : retire s o store = .next t) : Framed D s t := by
  refine ⟨onlyWrites_retireTo hstore h, ?_⟩
  obtain ⟨r, f, -, rfl⟩ | ⟨f, -, rfl⟩ := retire_next h <;> rfl

/-! ## Routing groups -/

section groups
variable {ac : AcNum} {a : AddrSpec}

theorem framed_arithGroup {m : Mode} {imm : Half → Word} {core : Word → Word → CoreOutcome Word}
    (h : arithGroup m imm core ac a s = .next t) : Framed (modeDests m [ac] s a) s t := by
  obtain ⟨e, b, he, -, h⟩ := arithGroup_next h
  exact framed_retire (fun r _ _ _ _ => onlyWrites_storeMode m r he) h

theorem framed_pairGroup {m : Mode} {core : Word → Word → CoreOutcome (Word × Word)}
    (h : pairGroup m core ac a s = .next t) : Framed (modeDests m [ac, ac + 1] s a) s t := by
  obtain ⟨e, b, he, -, h⟩ := pairGroup_next h
  exact framed_retire (fun r _ _ _ _ => onlyWrites_storeModePair m r he) h

theorem framed_divGroup {m : Mode} {core : Word × Word → Word → CoreOutcome (Word × Word)}
    (h : divGroup m core ac a s = .next t) : Framed (modeDests m [ac, ac + 1] s a) s t := by
  obtain ⟨e, b, he, -, h⟩ := divGroup_next h
  exact framed_retire (fun r _ _ _ _ => onlyWrites_storeModePair m r he) h

theorem framed_moveGroup {m : MoveMode} {core : Word → CoreOutcome Word}
    (h : moveGroup m core ac a s = .next t) : Framed (moveDests m ac s a) s t := by
  obtain ⟨e, x, he, -, h⟩ := moveGroup_next h
  exact framed_retire (fun r _ _ _ _ => onlyWrites_storeMove m r he) h

/-- R162: AOJ and SOJ store to AC, whatever their next PC. -/
theorem onlyWrites_jumpGroup {c : Cond} {core : Word → CoreOutcome Word}
    (h : jumpGroup c core ac a s = .next t) : OnlyWrites (acAddrs [ac]) s t := by
  obtain ⟨e, -, h⟩ := jumpGroup_next h
  exact onlyWrites_retireTo (fun r _ _ _ _ => onlyWrites_setAc r List.mem_cons_self) h

/-- R162: AOS and SOS store to E and AC, whatever their next PC. -/
theorem onlyWrites_skipGroup {c : Cond} {core : Word → CoreOutcome Word}
    (h : skipGroup c core ac a s = .next t) : OnlyWrites (selfDests ac s a) s t := by
  obtain ⟨e, x, he, -, h⟩ := skipGroup_next h
  exact onlyWrites_retireTo (fun r _ _ _ _ => onlyWrites_storeSelf r he) h

/-- R163: one result to an accumulator. -/
theorem framed_retire_setAc {o : CoreOutcome Word} (h : retire s o (fun r u => u.setAc ac r) = .next t) :
    Framed (acAddrs [ac]) s t :=
  framed_retire (fun r _ _ _ _ => onlyWrites_setAc r List.mem_cons_self) h

/-- R163: two results to AC, AC + 1. -/
theorem framed_retire_storePair {o : CoreOutcome (Word × Word)} (h : retire s o (storePair ac) = .next t) :
    Framed (acAddrs [ac, ac + 1]) s t :=
  framed_retire (fun r _ _ _ _ => onlyWrites_storePair r (List.Subset.refl _)) h

/-- R163: four results to AC to AC + 3. -/
theorem framed_retire_storeQuad {o : CoreOutcome ((Word × Word) × (Word × Word))}
    (h : retire s o (storeQuad ac) = .next t) : Framed (acAddrs [ac, ac + 1, ac + 2, ac + 3]) s t :=
  framed_retire (fun r _ _ _ _ => onlyWrites_storeQuad r) h

theorem framed_countGroup {core : Word → Int → CoreOutcome Word} (h : countGroup core ac a s = .next t) :
    Framed (acAddrs [ac]) s t := by
  obtain ⟨e, -, h⟩ := countGroup_next h
  exact framed_retire_setAc h

theorem framed_unaryGroup {core : Word → CoreOutcome Word} (h : unaryGroup core ac a s = .next t) :
    Framed (acAddrs [ac]) s t := by
  obtain ⟨b, h⟩ := unaryGroup_next h
  exact framed_retire_setAc h

theorem framed_narrowGroup {core : Word × Word → CoreOutcome Word} (h : narrowGroup core ac a s = .next t) :
    Framed (acAddrs [ac]) s t := by
  obtain ⟨d, h⟩ := narrowGroup_next h
  exact framed_retire_setAc h

theorem framed_doubleGroup {core : Word × Word → Word × Word → CoreOutcome (Word × Word)}
    (h : doubleGroup core ac a s = .next t) : Framed (acAddrs [ac, ac + 1]) s t := by
  obtain ⟨e, d, -, h⟩ := doubleGroup_next h
  exact framed_retire_storePair h

theorem framed_countPairGroup {core : Word × Word → Int → CoreOutcome (Word × Word)}
    (h : countPairGroup core ac a s = .next t) : Framed (acAddrs [ac, ac + 1]) s t := by
  obtain ⟨e, -, h⟩ := countPairGroup_next h
  exact framed_retire_storePair h

theorem framed_widenGroup {core : Word → CoreOutcome (Word × Word)} (h : widenGroup core ac a s = .next t) :
    Framed (acAddrs [ac, ac + 1]) s t := by
  obtain ⟨b, h⟩ := widenGroup_next h
  exact framed_retire_storePair h

theorem framed_pairFromMemGroup {core : Word × Word → CoreOutcome (Word × Word)}
    (h : pairFromMemGroup core ac a s = .next t) : Framed (acAddrs [ac, ac + 1]) s t := by
  obtain ⟨d, h⟩ := pairFromMemGroup_next h
  exact framed_retire_storePair h

end groups

/-! ## Byte instructions -/

section byte
variable {ac : AcNum} {a : AddrSpec} {e : Half} {w0 : Word} {bp : Bp}

/-- A byte instruction that answers a next state used its pointer. -/
theorem byteGroup_next_pointerAt {core : State → Word → Except MemInfo Word → CoreOutcome ByteResult}
    (hcore : ∀ w0 m1, ∃ k, core s w0 m1 = withPointer s.cfg w0 m1 k) (h : byteGroup core ac a s = .next t) :
    ∃ e w0 bp, effAddr s a = .ok e ∧ Claims.PointerAt s e w0 bp := by
  obtain ⟨e, w0, he, hw, h⟩ := byteGroup_next h
  obtain ⟨k, hk⟩ := hcore w0 (secondWord s e)
  rw [hk] at h
  cases hcanon : canon s.cfg w0 (secondWord s e) with
  | error info =>
    rw [withPointer_error hcanon] at h
    cases h
  | ok bp =>
    cases htrap : bpTraps s.cfg.bpTrap bp with
    | true =>
      rw [withPointer_traps hcanon htrap] at h
      cases h
    | false => exact ⟨e, w0, bp, he, hw, hcanon, htrap⟩

theorem pointerOf_pointerAt (he : effAddr s a = .ok e) (hptr : Claims.PointerAt s e w0 bp) :
    Claims.pointerOf s a = some bp := by
  obtain ⟨hw, hcanon, -⟩ := hptr
  simp only [Claims.pointerOf, he, hw, hcanon, Except.toOption]

theorem pointerWords_pointerAt (he : effAddr s a = .ok e) (hptr : Claims.PointerAt s e w0 bp) :
    Claims.pointerWords s a = if bp.form = .twl ∨ bp.form = .twg then 2 else 1 := by
  simp only [Claims.pointerWords, pointerOf_pointerAt he hptr]

theorem byteWordAt_pointerAt (he : effAddr s a = .ok e) (hptr : Claims.PointerAt s e w0 bp) {f : Bp → Bp} {x : MemAddr}
    (hx : byteAddr s (f bp) = .ok x) : Claims.byteWordAt s a f = [x] := by
  simp only [Claims.byteWordAt, pointerOf_pointerAt he hptr, hx]

/-- R509: only a two-word pointer is written back as two words. -/
theorem encode2_snd_eq_none {bp' : Bp} (h : ¬ (bp'.form = .twl ∨ bp'.form = .twg)) (pf : BitVec 6) (w0 w1 : Word) :
    (encode2 bp' pf w0 w1).2 = none := by
  rw [not_or] at h
  unfold encode2
  cases hf : bp'.form with
  | twl => exact absurd hf h.1
  | twg => exact absurd hf h.2
  | owl | owg | owgBad | twBad => rfl

/-- R500: the words of a pointer to E, E + 1. -/
theorem onlyWrites_storePointer (he : effAddr s a = .ok e) (hptr : Claims.PointerAt s e w0 bp)
    {v : Word × Option Word} (hv : ¬ (bp.form = .twl ∨ bp.form = .twg) → v.2 = none) (hu : u.cfg = s.cfg)
    (hD : Claims.wordsAt s a (Claims.pointerWords s a) ⊆ D) : OnlyWrites D u (storePointer e (some v) u) := by
  rw [pointerWords_pointerAt he hptr] at hD
  obtain ⟨v0, _ | v1⟩ := v
  · exact onlyWrites_writeWord v0 (hD (loc_mem_wordsAt he _))
  · have htwo : bp.form = .twl ∨ bp.form = .twg := by
      by_contra hone
      cases hv hone
    rw [if_pos htwo] at hD
    exact onlyWrites_storeMemPair (v0, v1) he hu hD

theorem onlyWrites_storePointer_encPointer (he : effAddr s a = .ok e) (hptr : Claims.PointerAt s e w0 bp)
    (m1 : Except MemInfo Word) (hu : u.cfg = s.cfg) (hD : Claims.wordsAt s a (Claims.pointerWords s a) ⊆ D) :
    OnlyWrites D u (storePointer e (some (encPointer (Claims.incremented bp) w0 m1)) u) :=
  onlyWrites_storePointer he hptr (fun hone => encode2_snd_eq_none (by simpa using hone) _ _ _) hu hD

theorem framed_ldb (h : exec (.ldb ac a) s = .next t) : Framed (acAddrs [ac]) s t := by
  obtain ⟨e, w0, bp, he, hptr⟩ := byteGroup_next_pointerAt (core := ldbCore) (fun _ _ => ⟨_, rfl⟩) h
  rw [exec_ldb_of_pointerAt he hptr] at h
  refine framed_retire (fun r _ u hdone _ => ?_) h
  obtain ⟨x, w, -, -, hr⟩ := withByteWord_done hdone
  cases hr
  exact onlyWrites_setAc _ List.mem_cons_self

theorem framed_dpb (h : exec (.dpb ac a) s = .next t) : Framed (Claims.byteWordAt s a id) s t := by
  obtain ⟨e, w0, bp, he, hptr⟩ :=
    byteGroup_next_pointerAt (core := fun s => dpbCore s (s.ac ac)) (fun _ _ => ⟨_, rfl⟩) h
  rw [exec_dpb_of_pointerAt he hptr] at h
  refine framed_retire (fun r _ u hdone _ => ?_) h
  obtain ⟨x, w, hx, -, hr⟩ := withByteWord_done hdone
  obtain ⟨-, hr⟩ := withByteWrite_done hr
  cases hr
  rw [byteWordAt_pointerAt he hptr hx]
  exact onlyWrites_writeWord _ List.mem_cons_self

theorem framed_ibp (h : exec (.ibp a) s = .next t) : Framed (Claims.wordsAt s a (Claims.pointerWords s a)) s t := by
  obtain ⟨e, w0, bp, he, hptr⟩ := byteGroup_next_pointerAt (core := ibpCore) (fun _ _ => ⟨_, rfl⟩) h
  rw [exec_ibp_of_pointerAt he hptr] at h
  refine framed_retire (fun r _ u hdone hu => ?_) h
  cases hdone
  exact onlyWrites_storePointer_encPointer he hptr _ hu (List.Subset.refl _)

theorem framed_ildb (h : exec (.ildb ac a) s = .next t) :
    Framed (acAddrs [ac] ++ Claims.wordsAt s a (Claims.pointerWords s a)) s t := by
  obtain ⟨e, w0, bp, he, hptr⟩ := byteGroup_next_pointerAt (core := ildbCore) (fun _ _ => ⟨_, rfl⟩) h
  rw [exec_ildb_of_pointerAt he hptr] at h
  refine framed_retire (fun r _ u hdone hu => ?_) h
  obtain ⟨x, w, -, -, hr⟩ := withByteWord_done hdone
  cases hr
  exact (onlyWrites_storePointer_encPointer he hptr _ hu (List.subset_append_right _ _)).trans
    (onlyWrites_setAc _ (List.mem_append_left _ List.mem_cons_self))

theorem framed_idpb (h : exec (.idpb ac a) s = .next t) :
    Framed (Claims.byteWordAt s a Claims.incremented ++ Claims.wordsAt s a (Claims.pointerWords s a)) s t := by
  obtain ⟨e, w0, bp, he, hptr⟩ :=
    byteGroup_next_pointerAt (core := fun s => idpbCore s (s.ac ac)) (fun _ _ => ⟨_, rfl⟩) h
  rw [exec_idpb_of_pointerAt he hptr] at h
  refine framed_retire (fun r _ u hdone hu => ?_) h
  obtain ⟨x, w, hx, -, hr⟩ := withByteWord_done hdone
  obtain ⟨-, hr⟩ := withByteWrite_done hr
  cases hr
  rw [byteWordAt_pointerAt he hptr hx]
  exact (onlyWrites_writeWord _ (List.mem_append_left _ List.mem_cons_self)).trans
    (onlyWrites_storePointer_encPointer he hptr _ (by simpa using hu) (List.subset_append_right _ _))

/-- R515: only a two-word pointer is adjusted to two words. -/
theorem adjustPointer_snd_eq_none (h : ¬ (bp.form = .twl ∨ bp.form = .twg)) (n : Int) (w0 w1 : Word) :
    (adjustPointer bp n w0 w1).2 = none :=
  encode2_snd_eq_none (bp' := { bp with y := advanceY bp (adjustQ bp n) }) h _ _ _

theorem dests_adjbp :
    dests (.adjbp ac a) s = acAddrs (if Claims.pointerWords s a = 2 then [ac, ac + 1] else [ac]) := List.append_nil _

/-- R500, R515: the words of a pointer to AC, AC + 1. -/
theorem onlyWrites_storeByteAc (he : effAddr s a = .ok e) (hptr : Claims.PointerAt s e w0 bp) {v : Word × Option Word}
    (hv : ¬ (bp.form = .twl ∨ bp.form = .twg) → v.2 = none) :
    OnlyWrites (dests (.adjbp ac a) s) u (storeByteAc ac (some v) u) := by
  rw [dests_adjbp, pointerWords_pointerAt he hptr]
  by_cases htwo : bp.form = .twl ∨ bp.form = .twg
  · rw [if_pos htwo, if_pos rfl]
    obtain ⟨v0, _ | v1⟩ := v
    · exact onlyWrites_setAc v0 List.mem_cons_self
    · exact onlyWrites_storePair (v0, v1) (List.Subset.refl _)
  · rw [if_neg htwo, if_neg (by decide)]
    obtain ⟨v0, v1⟩ := v
    obtain rfl : v1 = none := hv htwo
    exact onlyWrites_setAc v0 List.mem_cons_self

theorem framed_adjbp (h : exec (.adjbp ac a) s = .next t) : Framed (dests (.adjbp ac a) s) s t := by
  obtain ⟨e, w0, bp, he, hptr⟩ :=
    byteGroup_next_pointerAt (core := fun s => adjbpCore s (s.ac ac)) (fun _ _ => ⟨_, rfl⟩) h
  rw [exec_adjbp_of_pointerAt he hptr] at h
  refine framed_retire (fun r _ u hdone _ => ?_) h
  split at hdone
  · cases hdone
    exact onlyWrites_storeByteAc he hptr fun hone => by rw [samePointer_eq fun _ => rfl, if_neg hone]
  · split at hdone
    · cases hdone
    · cases hdone
      exact onlyWrites_storeByteAc he hptr fun hone => adjustPointer_snd_eq_none hone _ _ _

end byte

/-! ## Every instruction -/

/-- R162: the instructions that choose their next PC. -/
def jumpsOrSkips (i : Instr) : Bool :=
  match i with
  | .aoj _ _ | .aojl _ _ | .aoje _ _ | .aojle _ _ | .aoja _ _ | .aojge _ _ | .aojn _ _ | .aojg _ _ => true
  | .soj _ _ | .sojl _ _ | .soje _ _ | .sojle _ _ | .soja _ _ | .sojge _ _ | .sojn _ _ | .sojg _ _ => true
  | .aos _ _ | .aosl _ _ | .aose _ _ | .aosle _ _ | .aosa _ _ | .aosge _ _ | .aosn _ _ | .aosg _ _ => true
  | .sos _ _ | .sosl _ _ | .sose _ _ | .sosle _ _ | .sosa _ _ | .sosge _ _ | .sosn _ _ | .sosg _ _ => true
  | _ => false

theorem exists_row_of_jumpsOrSkips {i : Instr} (h : jumpsOrSkips i = true) :
    ∃ row ∈ Claims.aojRows ++ Claims.sojRows ++ Claims.aosRows ++ Claims.sosRows, ∃ ac a, i = row.1 ac a := by
  simp only [Claims.aojRows, Claims.sojRows, Claims.aosRows, Claims.sosRows, List.cons_append,
    List.nil_append, List.exists_mem_cons_iff, List.not_mem_nil, false_and, exists_false, or_false]
  cases i with
  | aoj | aojl | aoje | aojle | aoja | aojge | aojn | aojg
  | soj | sojl | soje | sojle | soja | sojge | sojn | sojg
  | aos | aosl | aose | aosle | aosa | aosge | aosn | aosg
  | sos | sosl | sose | sosle | sosa | sosge | sosn | sosg => simp
  | _ => cases h

/-- R713, R714: an instruction stores within its destinations, and all but the jumps and skips go to PC + 1. -/
theorem exec_frame {i : Instr} {s t : State} (h : exec i s = .next t) :
    OnlyWrites (dests i s) s t ∧ (jumpsOrSkips i = false → t.pc = s.pc + 1) := by
  have framed (hf : Framed (dests i s) s t) :
      OnlyWrites (dests i s) s t ∧ (jumpsOrSkips i = false → t.pc = s.pc + 1) := ⟨hf.1, fun _ => hf.2⟩
  cases i with
  | aoj | aojl | aoje | aojle | aoja | aojge | aojn | aojg
  | soj | sojl | soje | sojle | soja | sojge | sojn | sojg =>
    exact ⟨onlyWrites_jumpGroup h, nofun⟩
  | aos | aosl | aose | aosle | aosa | aosge | aosn | aosg
  | sos | sosl | sose | sosle | sosa | sosge | sosn | sosg =>
    exact ⟨onlyWrites_skipGroup h, nofun⟩
  | add | addi | addm | addb | sub | subi | subm | subb | imul | imuli | imulm | imulb
  | setz | setzi | setzm | setzb | and | andi | andm | andb | andca | andcai | andcam | andcab
  | setm | setmi | setmm | setmb | andcm | andcmi | andcmm | andcmb | seta | setai | setam | setab
  | xor | xori | xorm | xorb | ior | iori | iorm | iorb | andcb | andcbi | andcbm | andcbb
  | eqv | eqvi | eqvm | eqvb | setca | setcai | setcam | setcab | orca | orcai | orcam | orcab
  | setcm | setcmi | setcmm | setcmb | orcm | orcmi | orcmm | orcmb | orcb | orcbi | orcbm | orcbb
  | seto | setoi | setom | setob
  | fad | fadm | fadb | fadr | fadri | fadrm | fadrb | fsb | fsbm | fsbb | fsbr | fsbri | fsbrm | fsbrb
  | fmp | fmpm | fmpb | fmpr | fmpri | fmprm | fmprb | fdv | fdvm | fdvb | fdvr | fdvri | fdvrm | fdvrb =>
    exact framed (framed_arithGroup h)
  | mul | muli | mulm | mulb | idiv | idivi | idivm | idivb => exact framed (framed_pairGroup h)
  | div | divi | divm | divb => exact framed (framed_divGroup h)
  | movn | movni | movnm | movns | movm | movmm | movms => exact framed (framed_moveGroup h)
  | movmi ac a => exact framed (framed_moveGroup (m := .immediate) ((execMovmi_eq_moveGroup ac a s).symm.trans h))
  | dmovnm =>
    obtain ⟨e, he, h⟩ := withE_next h
    exact framed (framed_retire (fun r _ _ _ hu => onlyWrites_storeMemPair r he hu (List.Subset.refl _)) h)
  | ash | rot | lsh | fsc => exact framed (framed_countGroup h)
  | ashc | rotc | lshc => exact framed (framed_countPairGroup h)
  | fix | fixr | fltr => exact framed (framed_unaryGroup h)
  | dmovn => exact framed (framed_pairFromMemGroup h)
  | dadd | dsub | dfad | dfsb | dfmp | dfdv => exact framed (framed_doubleGroup h)
  | dmul | ddiv =>
    obtain ⟨e, -, h⟩ := withE_next h
    obtain ⟨d, h⟩ := withPair_next h
    exact framed (framed_retire_storeQuad h)
  | ufa =>
    obtain ⟨e, -, h⟩ := withE_next h
    obtain ⟨b, -, h⟩ := withWord_next h
    exact framed (framed_retire_setAc h)
  | gfad | gfsb | gfmp | gfdv => exact framed (framed_doubleGroup (ifGfloat_next h).2)
  | gsngl | gfix | gfixr => exact framed (framed_narrowGroup (ifGfloat_next h).2)
  | gdble | gfltr => exact framed (framed_widenGroup (ifGfloat_next h).2)
  | dgfix | dgfixr | dgfltr => exact framed (framed_pairFromMemGroup (ifGfloat_next h).2)
  | gfsc => exact framed (framed_countPairGroup (ifGfloat_next h).2)
  | ldb => exact framed (framed_ldb h)
  | dpb => exact framed (framed_dpb h)
  | ibp => exact framed (framed_ibp h)
  | ildb => exact framed (framed_ildb h)
  | idpb => exact framed (framed_idpb h)
  | adjbp => exact framed (framed_adjbp h)

/-! ## Jumps and skips -/

/-- R162, R714: a jump of the rows is a jump group under its own condition, over an operation that always ends as Done. -/
theorem exec_jumpRows : ∀ row ∈ Claims.aojRows ++ Claims.sojRows, ∃ (c : Cond) (core : Word → CoreOutcome Word),
    (∀ ac a s, exec (row.1 ac a) s = jumpGroup c core ac a s) ∧ (∀ v, row.2 v = c.holds v) ∧
    ∀ x, ∃ r f, core x = .done r f := by
  simp only [Claims.aojRows, Claims.sojRows, List.forall_mem_append, List.forall_mem_cons, List.not_mem_nil,
    false_implies, implies_true, and_true]
  refine ⟨?aoj, ?soj⟩
  case aoj => and_intros <;> exact ⟨_, _, fun _ _ _ => rfl, fun _ => rfl, fun x => ⟨_, _, incCore_eq x⟩⟩
  case soj => and_intros <;> exact ⟨_, _, fun _ _ _ => rfl, fun _ => rfl, fun x => ⟨_, _, decCore_eq x⟩⟩

/-- R162, R714: the same of a skip of the rows. -/
theorem exec_skipRows : ∀ row ∈ Claims.aosRows ++ Claims.sosRows, ∃ (c : Cond) (core : Word → CoreOutcome Word),
    (∀ ac a s, exec (row.1 ac a) s = skipGroup c core ac a s) ∧ (∀ v, row.2 v = c.holds v) ∧
    ∀ x, ∃ r f, core x = .done r f := by
  simp only [Claims.aosRows, Claims.sosRows, List.forall_mem_append, List.forall_mem_cons, List.not_mem_nil,
    false_implies, implies_true, and_true]
  refine ⟨?aos, ?sos⟩
  case aos => and_intros <;> exact ⟨_, _, fun _ _ _ => rfl, fun _ => rfl, fun x => ⟨_, _, incCore_eq x⟩⟩
  case sos => and_intros <;> exact ⟨_, _, fun _ _ _ => rfl, fun _ => rfl, fun x => ⟨_, _, decCore_eq x⟩⟩

/-- R161, R162: the word at E reads as the result, also where E is the accumulator it is stored to again. -/
theorem readWord_storeSelf (u : State) (ac : AcNum) (e : Half) (r : Word) :
    (storeSelf ac e r u).readWord (loc e) = some r := by
  unfold storeSelf
  split
  · rw [State.readWord_writeWord, if_pos rfl]
  · rw [State.readWord_setAc, State.readWord_writeWord, if_pos rfl, ite_self]

end Sys2Proof.Machine

/-! SUPPORT. The address loop of R711 over indirect words (70_reset_and_hazards.md R711): once it has ended, more fuel changes
nothing, and with fuel for one more turn than there are addresses it has ended or never ends. -/

namespace Sys2Proof.Machine

section loop
variable {s : State} {n : Nat} {a : AddrSpec}

theorem indexed_eq_ofNat (s : State) (a : AddrSpec) :
    indexed s a = BitVec.ofNat 18 (a.y.toNat + if a.x = 0 then 0 else (s.ac a.x).toNat) := by
  unfold indexed rh
  split
  · simp
  · apply BitVec.eq_of_toNat_eq
    simp only [BitVec.toNat_add, BitVec.extractLsb'_toNat, BitVec.toNat_ofNat, Nat.shiftRight_zero]
    omega

/-! ## One turn -/

theorem eaLoop_direct (hi : a.i = false) : eaLoop s (n + 1) a = .ok (indexed s a) := by
  simp [eaLoop, hi]

theorem eaLoop_unwritten (hi : a.i = true) (hw : s.readWord (loc (indexed s a)) = none) :
    eaLoop s (n + 1) a = .error (.fault (.unwritten (loc (indexed s a)))) := by
  simp [eaLoop, hi, hw]

theorem eaLoop_indirect {w : Word} (hi : a.i = true) (hw : s.readWord (loc (indexed s a)) = some w) :
    eaLoop s (n + 1) a = eaLoop s n (addrOf w) := by
  simp [eaLoop, hi, hw]

/-! ## Fuel enough -/

/-- A loop that has ended, in an address or a fault, ends so with more fuel. -/
theorem eaLoop_succ_of_ended (h : eaLoop s n a ≠ .error .cycle) : eaLoop s (n + 1) a = eaLoop s n a := by
  induction n generalizing a with
  | zero => exact absurd rfl h
  | succ n ih =>
    cases hi : a.i with
    | false => rw [eaLoop_direct hi, eaLoop_direct hi]
    | true =>
      cases hw : s.readWord (loc (indexed s a)) with
      | none => rw [eaLoop_unwritten hi hw, eaLoop_unwritten hi hw]
      | some w =>
        rw [eaLoop_indirect hi hw] at h
        rw [eaLoop_indirect hi hw, eaLoop_indirect hi hw, ih h]

/-- The addresses of indirect words from which the loop ends within `n + 1` turns. -/
def endingWithin (s : State) (n : Nat) : Set Half := {e | eaLoop s (n + 1) ⟨true, 0, e⟩ ≠ .error .cycle}

/-- A turn with I set rests on the address it reads alone. -/
theorem eaLoop_eq_of_indirect (hi : a.i = true) : eaLoop s n a = eaLoop s n ⟨true, 0, indexed s a⟩ := by
  cases n with
  | zero => rfl
  | succ n => rw [eaLoop, eaLoop, hi]; rfl

theorem mem_endingWithin {e : Half} : e ∈ endingWithin s n ↔ eaLoop s (n + 1) ⟨true, 0, e⟩ ≠ .error .cycle := Iff.rfl

theorem endingWithin_subset_succ (s : State) (n : Nat) : endingWithin s n ⊆ endingWithin s (n + 1) := by
  intro e he
  rw [mem_endingWithin, eaLoop_succ_of_ended he]
  exact he

/-- Where one more turn lets no further address end, neither do two. -/
theorem endingWithin_stable (h : endingWithin s n = endingWithin s (n + 1)) :
    endingWithin s (n + 1) = endingWithin s (n + 2) := by
  refine (endingWithin_subset_succ s (n + 1)).antisymm fun e he => ?_
  cases hw : s.readWord (loc e) with
  | none =>
    rw [mem_endingWithin, eaLoop_unwritten rfl hw]
    nofun
  | some w =>
    rw [mem_endingWithin, eaLoop_indirect rfl hw] at he ⊢
    cases hi : (addrOf w).i with
    | false =>
      rw [eaLoop_direct hi]
      nofun
    | true =>
      rw [eaLoop_eq_of_indirect hi] at he ⊢
      exact h.symm.subset he

theorem natCard_half : Nat.card Half = 2 ^ 18 := by
  rw [Nat.card_eq_fintype_card, ← FinEnum.card_eq_fintypeCard, FinEnum.card_bitVec]

/-- There are 2^18 addresses, so that from then on the ending ones stay the same. -/
theorem endingWithin_card (s : State) : endingWithin s (2 ^ 18 + 1) = endingWithin s (2 ^ 18) := by
  have hmono : Monotone fun n => (endingWithin s n).ncard :=
    monotone_nat_of_le_succ fun n => Set.ncard_le_ncard (endingWithin_subset_succ s n)
  have heq_of_ncard {n : Nat} (h : (endingWithin s n).ncard = (endingWithin s (n + 1)).ncard) :
      endingWithin s n = endingWithin s (n + 1) :=
    Set.eq_of_subset_of_ncard_le (endingWithin_subset_succ s n) h.ge
  refine (heq_of_ncard ?_).symm
  exact (Nat.stabilises_of_monotone hmono (fun n => (Set.ncard_le_card _).trans_eq natCard_half)
    (fun n h => congrArg Set.ncard (endingWithin_stable (heq_of_ncard h))) (Nat.le_succ _)).symm

/-- The bound of `effAddr` is exact: one turn less gives the same answer. -/
theorem effAddr_eq_eaLoop (s : State) (a : AddrSpec) : effAddr s a = eaLoop s (2 ^ 18 + 1) a := by
  rw [effAddr]
  by_cases h : eaLoop s (2 ^ 18 + 1) a = .error .cycle
  · rw [h]
    cases hi : a.i with
    | false => rw [eaLoop_direct hi] at h; cases h
    | true =>
      rw [eaLoop_eq_of_indirect hi] at h ⊢
      by_contra hended
      exact (endingWithin_card s).subset hended h
  · exact eaLoop_succ_of_ended h

/-! ## The effective address -/

theorem effAddr_direct (hi : a.i = false) : effAddr s a = .ok (indexed s a) := eaLoop_direct hi

theorem effAddr_unwritten (hi : a.i = true) (hw : s.readWord (loc (indexed s a)) = none) :
    effAddr s a = .error (.fault (.unwritten (loc (indexed s a)))) := eaLoop_unwritten hi hw

theorem effAddr_indirect {w : Word} (hi : a.i = true) (hw : s.readWord (loc (indexed s a)) = some w) :
    effAddr s a = effAddr s (addrOf w) := by
  rw [effAddr_eq_eaLoop s (addrOf w)]
  exact eaLoop_indirect hi hw

/-- R711: from a member of a set that each turn stays in, the loop never answers. -/
theorem eaLoop_cycle {P : AddrSpec → Prop}
    (hP : ∀ a, P a → a.i = true ∧ ∃ w, s.readWord (loc (indexed s a)) = some w ∧ P (addrOf w)) (n : Nat) (ha : P a) :
    eaLoop s n a = .error .cycle := by
  induction n generalizing a with
  | zero => rfl
  | succ n ih =>
    obtain ⟨hi, w, hw, hnext⟩ := hP a ha
    rw [eaLoop_indirect hi hw, ih hnext]

end loop

end Sys2Proof.Machine

/-! SUPPORT. Where a step stops at its fetch, and what it runs where the fetched words decode (70_reset_and_hazards.md
R712). -/

namespace Sys2Proof.Machine

section fetch
variable {s : State} {w x : Word} {e : Half}

theorem step_of_fetchWords_error {f : Fault} (hrun : s.run = .running) (h : fetchWords s = .error f) :
    step s = .fault f := by
  simp only [step, hrun, h]

theorem wordAt_none {y : MemAddr} (h : s.readWord y = none) : wordAt s y = .error (.readUnwritten y) := by
  simp only [wordAt, h]

theorem fetchAddr_error {err : AddrError} (h : effAddr s (addrOf w) = .error err) :
    fetchAddr s w = .error err.toFault := by
  simp only [fetchAddr, h]

theorem fetchWords_unwritten (hw : s.readWord (loc s.pc) = none) :
    fetchWords s = .error (.readUnwritten (loc s.pc)) := by
  simp only [fetchWords, wordAt_none hw]

theorem fetchWords_addrError {err : AddrError} (hw : s.readWord (loc s.pc) = some w)
    (he : effAddr s (addrOf w) = .error err) : fetchWords s = .error err.toFault := by
  simp only [fetchWords, wordAt_some hw, fetchAddr_error he]

theorem fetchWords_extend_unwritten (hw : s.readWord (loc s.pc) = some w) (he : effAddr s (addrOf w) = .ok e)
    (hop : opOf w = extendOp) (hx : s.readWord (loc e) = none) : fetchWords s = .error (.readUnwritten (loc e)) := by
  simp only [fetchWords, wordAt_some hw, fetchAddr_ok he, if_pos hop, wordAt_none hx]

theorem fetchWords_extend_addrError {err : AddrError} (hw : s.readWord (loc s.pc) = some w)
    (he : effAddr s (addrOf w) = .ok e) (hop : opOf w = extendOp) (hx : s.readWord (loc e) = some x)
    (he1 : effAddr s (addrOf x) = .error err) : fetchWords s = .error err.toFault := by
  simp only [fetchWords, wordAt_some hw, fetchAddr_ok he, if_pos hop, wordAt_some hx, fetchAddr_error he1]

/-- R712: HALT is no instruction of the map, so words that decode are not HALT. -/
theorem isHaltWords_of_decode_ok {ws : List Word} {i : Instr} (h : decode ws = .ok (i, [])) : isHaltWords ws = false := by
  obtain ⟨w, rfl, -, hbasic⟩ | ⟨w, x, rfl, -, -⟩ := decode_ok h
  · obtain ⟨make, hrow, -⟩ := decodeBasic_ok hbasic
    have hop : opOf w ≠ 0o254#9 := by
      intro hop
      rw [hop, basicRows_lookup_eq_none (by unfold Claims.coreOpcode; decide)] at hrow
      cases hrow
    simp [isHaltWords, isHalt, hop]
  · rfl

theorem runWords_of_decode_ok {ws : List Word} {i : Instr} (h : decode ws = .ok (i, [])) : runWords ws s = exec i s := by
  rw [runWords, isHaltWords_of_decode_ok h, h]
  rfl

end fetch

end Sys2Proof.Machine

/-! SUPPORT. The memory operands of every instruction (30_encoding.md R158-R163, 70_reset_and_hazards.md R712): an instruction
that fills a port from memory begins with that read. -/

namespace Sys2Proof.Machine

section operands
variable {s : State} {i : Instr} {a : AddrSpec}

theorem withWord_none {y : MemAddr} {k : Word → Out} (h : s.readWord y = none) :
    withWord s y k = .fault (.readUnwritten y) := by simp [withWord, h]

/-- R158-R163, R500: an instruction whose port M[0] is C(E) is by definition that read and something after it, once it is no
G-format instruction that HAS_GFLOAT refuses. -/
theorem exec_readsWordAt (h : Claims.readsWordAt i = some a) (hg : Claims.needsGfloat i = true → s.cfg.hasGfloat = true) :
    ∃ k : Half → Word → Out, exec i s = withE s a fun e => withWord s (loc e) (k e) := by
  cases i with
  | gdble | gfltr =>
    cases h
    exact ⟨_, ifGfloat_pos (hg rfl)⟩
  | _ => cases h <;> exact ⟨_, rfl⟩

/-- R163: the same of C(E), C(E+1). -/
theorem exec_readsPairAt (h : Claims.readsPairAt i = some a) (hg : Claims.needsGfloat i = true → s.cfg.hasGfloat = true) :
    ∃ k : Half → Word × Word → Out, exec i s = withE s a fun e => withPair s e (k e) := by
  cases i with
  | dadd | dsub | dmul | ddiv | dmovn | dfad | dfsb | dfmp | dfdv =>
    cases h
    exact ⟨_, rfl⟩
  | gfad | gfsb | gfmp | gfdv | gsngl | gfix | gfixr | dgfix | dgfixr | dgfltr =>
    cases h
    exact ⟨_, ifGfloat_pos (hg rfl)⟩
  | _ => cases h

end operands

/-- R512: the byte is reached through a pointer of the form the pointer has. -/
theorem reachingInstrs_form {ac : AcNum} {a : AddrSpec} {bp : Bp} :
    ∀ row ∈ Claims.reachingInstrs ac a bp, row.2.form = bp.form := by
  simp [Claims.reachingInstrs]

end Sys2Proof.Machine

/-! PROOFS. The statements of 70_reset_and_hazards.md. -/

namespace Sys2Proof.Machine

/-- Settles O7: such an instruction begins with the read that is not answered. -/
theorem unwrittenOperandsFault : Obligations.UnwrittenOperandsFault := by
  intro s i a e he hg
  refine ⟨fun hreads hw => ?word, fun hreads hw => ?pairFirst, fun hreads hw hlo => ?pairSecond⟩
  case word =>
    obtain ⟨k, hexec⟩ := exec_readsWordAt hreads hg
    rw [hexec, withE_ok he, withWord_none hw]
  case pairFirst =>
    obtain ⟨k, hexec⟩ := exec_readsPairAt hreads hg
    rw [hexec, withE_ok he, withPair, withWord_none hw]
  case pairSecond =>
    obtain ⟨k, hexec⟩ := exec_readsPairAt hreads hg
    obtain ⟨hi, hhi⟩ := Option.ne_none_iff_exists'.mp hw
    rw [← nextLoc_eq_succAddr] at hlo ⊢
    rw [hexec, withE_ok he, withPair, withWord_some hhi, withWord_none hlo]

/-- Settles O8: one turn of the loop, and the fuel it takes makes no difference. -/
theorem effectiveAddressFollowsIndirection : Obligations.EffectiveAddressFollowsIndirection := by
  intro s a
  rw [← indexed_eq_ofNat]
  exact ⟨effAddr_direct, effAddr_unwritten, fun hi _ hw => effAddr_indirect hi hw⟩

/-- Settles O9: the loop stays in the set whatever its fuel, and every use of it passes the cycle on. -/
theorem indirectionCyclesNeverAnswer : Obligations.IndirectionCyclesNeverAnswer := by
  intro s P hP
  simp only [← indexed_eq_ofNat] at hP
  have hcycle (a : AddrSpec) (ha : P a) : effAddr s a = .error .cycle := eaLoop_cycle hP _ ha
  refine ⟨hcycle, fun w hrun hw ha => ?_, fun w e x hrun hw he hop hx ha => ?_,
    fun ac a e w0 bp he hptr hlocal row hrow ha => ?_⟩
  · exact step_of_fetchWords_error hrun (fetchWords_addrError hw (hcycle _ ha))
  · exact step_of_fetchWords_error hrun (fetchWords_extend_addrError hw he hop hx (hcycle _ ha))
  · obtain ⟨k, hexec⟩ := exec_reachingInstrs he hptr row hrow
    have hbyte : byteAddr s row.2 = .error .cycle := by
      rw [byteAddr_local (reachingInstrs_form row hrow ▸ hlocal), hcycle _ ha]
      rfl
    rw [hexec, withByteWord_cycle hbyte]
    rfl

/-- Settles O2: an empty memory and a clear flag register. -/
theorem resetMeetsTheInvariants : Obligations.ResetMeetsTheInvariants := fun _ => ⟨rfl, rfl⟩

/-- Settles O3: the fetched words are those that decode, and they are not HALT. -/
theorem stepRunsTheDecodedInstruction : Obligations.StepRunsTheDecodedInstruction := by
  intro s w i e hrun hw he
  refine ⟨fun hdec => ?basic, fun x e1 hop hx he1 hdec => ?extend⟩
  case basic =>
    have hop : opOf w ≠ extendOp := by
      intro hop
      simp [decode, hop] at hdec
    rw [step_of_fetchWords hrun (fetchWords_basic hw he hop), runWords_of_decode_ok hdec]
  case extend =>
    rw [step_of_fetchWords hrun (fetchWords_extend hw he hop hx he1), runWords_of_decode_ok hdec]

/-- Settles O4: the one word fetched is HALT, and a stopped machine fetches none. -/
theorem haltAndStoppedMachines : Obligations.HaltAndStoppedMachines := by
  refine ⟨fun s w e hrun hw hop hac he => ?halt, fun s => ⟨fun h => ?_, fun f h => ?_, fun r h => ?_⟩⟩
  case halt =>
    have hne : opOf w ≠ extendOp := hop ▸ by decide
    rw [step_of_fetchWords hrun (fetchWords_basic hw he hne)]
    simp [runWords, isHaltWords, isHalt, hop, hac, haltRun]
  all_goals rw [step, h]

/-- Settles O6: the fetch stops at the first request that is not answered. -/
theorem unwrittenWordsFaultTheFetch : Obligations.UnwrittenWordsFaultTheFetch := by
  intro s hrun
  refine ⟨fun hw => ?_, fun w hw => ⟨fun x he => ?_, fun e he hop hx => ?_, fun e x y he hop hx he1 => ?_⟩⟩
  · exact step_of_fetchWords_error hrun (fetchWords_unwritten hw)
  · exact step_of_fetchWords_error hrun (fetchWords_addrError hw he)
  · exact step_of_fetchWords_error hrun (fetchWords_extend_unwritten hw he hop hx)
  · exact step_of_fetchWords_error hrun (fetchWords_extend_addrError hw he hop hx he1)

/-- Settles O15: what an instruction stores lies within its destinations, an accumulator read as the word at its address. -/
theorem frameOfEveryInstruction : Obligations.FrameOfEveryInstruction := by
  intro i s t h
  obtain ⟨hwrites, -⟩ := exec_frame h
  obtain ⟨hcfg, hrun, hfaults⟩ := keep_exec (cfgRunKeep s.cfg s.run s.writeFaults) ⟨rfl, rfl, rfl⟩ h
  have hword : ∀ x : MemAddr, x ∉ Claims.memDests i s → (∀ n ∈ Claims.acDests i s, x ≠ n.setWidth 30) →
      t.readWord x = s.readWord x := by
    intro x hmem hac
    refine hwrites x fun hx => ?_
    obtain hx | hx := List.mem_append.mp hx
    · obtain ⟨n, hn, rfl⟩ := List.mem_map.mp hx
      exact hac n hn rfl
    · exact hmem hx
  refine ⟨fun n hac hmem => ?_, hword, hrun, hcfg, hfaults⟩
  simpa using hword (n.setWidth 30) hmem fun m hm hnm => hac (acAddr_inj.mp hnm ▸ hm)

/-- Settles O17: a jump or skip by its row, where its operation is Done; every other instruction by its end. -/
theorem nextPcOfEveryInstruction : Obligations.NextPcOfEveryInstruction := by
  refine ⟨fun row hrow ac a s t h => ?jumps, fun row hrow ac a s t h => ?skips, fun i s t hrows h => ?others⟩
  case jumps =>
    obtain ⟨c, core, hexec, hcond, hdone⟩ := exec_jumpRows row hrow
    obtain ⟨e, he, h⟩ := jumpGroup_next (hexec ac a s ▸ h)
    obtain ⟨r, f, hcore⟩ := hdone (s.ac ac)
    rw [hcore] at h
    cases h
    refine ⟨e, he, ?_⟩
    rw [State.setPc_ac, State.ac_setAc_same, hcond]
    rfl
  case skips =>
    obtain ⟨c, core, hexec, hcond, hdone⟩ := exec_skipRows row hrow
    obtain ⟨e, x, he, -, h⟩ := skipGroup_next (hexec ac a s ▸ h)
    obtain ⟨r, f, hcore⟩ := hdone x
    rw [hcore] at h
    cases h
    refine ⟨e, r, he, readWord_storeSelf _ ac e r, ?_⟩
    rw [hcond]
    rfl
  case others =>
    refine (exec_frame h).2 (Bool.eq_false_iff.mpr fun hjump => ?_)
    obtain ⟨row, hrow, ac, a, rfl⟩ := exists_row_of_jumpsOrSkips hjump
    exact hrows row hrow ac a rfl

end Sys2Proof.Machine
